-- ==== Sys2Proof/Word.lean ====
section
/-! DEFINITION. The word types: a byte is 8 bits (R40), values and results are 32 bits (R5). -/

namespace Sys2Proof

/-- One byte of memory (R40). -/
abbrev Byte := BitVec 8

/-- The value operand, the value result and the read latch are 32 bits wide (R5, R34). -/
abbrev Word := BitVec 32

end Sys2Proof
end

