-- ==== Sys2Proof/Config.lean ====
section
/-! DEFINITION. What an implementation fixes: the three port widths (R5), what a byte that nothing has written reads
as (log 2), and the values the spec leaves unspecified (log 8). -/

namespace Sys2Proof

/-- The three parameters of R5, widths in bits of operand ports. They stand in State, so that a statement about every
state holds for every choice (log 1). -/
structure Params where
  /-- IDXW: width of the pixel index operand -/
  idxw : Nat
  /-- LENW: width of the buffer length operand -/
  lenw : Nat
  /-- ADDRW: width of a byte address -/
  addrw : Nat
deriving DecidableEq, Repr

/-- Each parameter is a value from 1 to 64 (R5). -/
def Params.valid (p : Params) : Bool :=
  decide (1 ≤ p.idxw) && decide (p.idxw ≤ 64) && decide (1 ≤ p.lenw) && decide (p.lenw ≤ 64) &&
    decide (1 ≤ p.addrw) && decide (p.addrw ≤ 64)

/-- The defaults of R5. -/
def Config.defaultParams : Params := ⟨32, 32, 32⟩

/-- What a byte that memory does not list reads as. DESIGN CHOICE, unsafe (log 2): the spec leaves the content of memory
before the first write open (R36, R234, U17). -/
def Config.unlistedByte : Byte := 0x00

/-- The values R36 and U13 leave unspecified while the block is idle (`any value`), as free values: nothing can be
computed or proved of them. The n-th value drawn (log 8). -/
opaque Config.unspecified : Nat → Nat

end Sys2Proof
end

