-- ==== Sys2Proof/Syntax.lean ====
section
/-! DEFINITION. The commands of the block: the closed set of widths (R6), the two data orders (R7), the raw command
record (R60), and `Instr`, one constructor per legal control word (R69), carrying the operand fields it reads (R65). -/

namespace Sys2Proof

/-- The seven pixel widths; the set is closed (R6). -/
inductive Width where
  | w1 | w2 | w4 | w8 | w16 | w24 | w32
deriving DecidableEq, Repr

/-- The two data orders; the set is closed (R7, R41, R42). -/
inductive DataOrder where
  | littleEndianMsb0
  | bigEndianLsb0
deriving DecidableEq, Repr

/-- The record on the command port (R60). `index`, `base` and `len` are natural numbers (R10); the port carries only
their low IDXW, ADDRW and LENW bits (R5, `Machine.Command.sample`). -/
structure Command where
  /-- control word (R61) -/
  cw : BitVec 16
  /-- pixel index (R65) -/
  index : Nat
  /-- raw value (R65) -/
  value : BitVec 32
  /-- byte address of the buffer (R29) -/
  base : Nat
  /-- length of the buffer in bytes (R29) -/
  len : Nat
deriving DecidableEq, Repr

/-- Why a control word names no operation: conditions (a) to (d) of R68. -/
inductive IllegalWord where
  /-- (a) `cw[15:8]` is not zero -/
  | reservedBits
  /-- (b) `op` is 0 or 8 to 15 -/
  | noOperation
  /-- (c) `wcode` is 7 -/
  | noWidth
  /-- (d) `cw[7]` is 1 in a value operation -/
  | orderOnValueOperation
deriving DecidableEq, Repr

/-- The five operations of format V (R61, R62). -/
inductive ValueOp where
  | new | fromU32 | intoInner | toLeBytes | toBeBytes
deriving DecidableEq, Repr

/-- An instruction with its width and order as data: the two formats of R61. -/
inductive Shape where
  /-- format V: reads `value` only -/
  | value (op : ValueOp) (w : Width) (value : BitVec 32)
  /-- format M, LOAD: reads `index`, `base`, `len` -/
  | load (w : Width) (o : DataOrder) (index base len : Nat)
  /-- format M, STORE: reads all four -/
  | store (w : Width) (o : DataOrder) (index : Nat) (value : BitVec 32) (base len : Nat)
deriving DecidableEq, Repr

/-- The 63 commands, one per row of the opcode table (R69), each with the operand fields it reads (R65). -/
inductive Instr where
  /-- NEW.1 (rule R82, `cw = 0x0001`) -/
  | new1 (value : BitVec 32)
  /-- NEW.2 (rule R83, `cw = 0x0011`) -/
  | new2 (value : BitVec 32)
  /-- NEW.4 (rule R84, `cw = 0x0021`) -/
  | new4 (value : BitVec 32)
  /-- NEW.8 (rule R85, `cw = 0x0031`) -/
  | new8 (value : BitVec 32)
  /-- NEW.16 (rule R86, `cw = 0x0041`) -/
  | new16 (value : BitVec 32)
  /-- NEW.24 (rule R87, `cw = 0x0051`) -/
  | new24 (value : BitVec 32)
  /-- NEW.32 (rule R88, `cw = 0x0061`) -/
  | new32 (value : BitVec 32)
  /-- FROM_U32.1 (rule R90, `cw = 0x0002`) -/
  | fromU32w1 (value : BitVec 32)
  /-- FROM_U32.2 (rule R91, `cw = 0x0012`) -/
  | fromU32w2 (value : BitVec 32)
  /-- FROM_U32.4 (rule R92, `cw = 0x0022`) -/
  | fromU32w4 (value : BitVec 32)
  /-- FROM_U32.8 (rule R93, `cw = 0x0032`) -/
  | fromU32w8 (value : BitVec 32)
  /-- FROM_U32.16 (rule R94, `cw = 0x0042`) -/
  | fromU32w16 (value : BitVec 32)
  /-- FROM_U32.24 (rule R95, `cw = 0x0052`) -/
  | fromU32w24 (value : BitVec 32)
  /-- FROM_U32.32 (rule R96, `cw = 0x0062`) -/
  | fromU32w32 (value : BitVec 32)
  /-- INTO_INNER.1 (rule R98, `cw = 0x0003`) -/
  | intoInner1 (value : BitVec 32)
  /-- INTO_INNER.2 (rule R99, `cw = 0x0013`) -/
  | intoInner2 (value : BitVec 32)
  /-- INTO_INNER.4 (rule R100, `cw = 0x0023`) -/
  | intoInner4 (value : BitVec 32)
  /-- INTO_INNER.8 (rule R101, `cw = 0x0033`) -/
  | intoInner8 (value : BitVec 32)
  /-- INTO_INNER.16 (rule R102, `cw = 0x0043`) -/
  | intoInner16 (value : BitVec 32)
  /-- INTO_INNER.24 (rule R103, `cw = 0x0053`) -/
  | intoInner24 (value : BitVec 32)
  /-- INTO_INNER.32 (rule R104, `cw = 0x0063`) -/
  | intoInner32 (value : BitVec 32)
  /-- LOAD.1.LM (rule R133, `cw = 0x0004`) -/
  | load1Lm (index base len : Nat)
  /-- LOAD.2.LM (rule R134, `cw = 0x0014`) -/
  | load2Lm (index base len : Nat)
  /-- LOAD.4.LM (rule R135, `cw = 0x0024`) -/
  | load4Lm (index base len : Nat)
  /-- LOAD.8.LM (rule R136, `cw = 0x0034`) -/
  | load8Lm (index base len : Nat)
  /-- LOAD.16.LM (rule R137, `cw = 0x0044`) -/
  | load16Lm (index base len : Nat)
  /-- LOAD.24.LM (rule R138, `cw = 0x0054`) -/
  | load24Lm (index base len : Nat)
  /-- LOAD.32.LM (rule R139, `cw = 0x0064`) -/
  | load32Lm (index base len : Nat)
  /-- LOAD.1.BL (rule R140, `cw = 0x0084`) -/
  | load1Bl (index base len : Nat)
  /-- LOAD.2.BL (rule R141, `cw = 0x0094`) -/
  | load2Bl (index base len : Nat)
  /-- LOAD.4.BL (rule R142, `cw = 0x00A4`) -/
  | load4Bl (index base len : Nat)
  /-- LOAD.8.BL (rule R143, `cw = 0x00B4`) -/
  | load8Bl (index base len : Nat)
  /-- LOAD.16.BL (rule R144, `cw = 0x00C4`) -/
  | load16Bl (index base len : Nat)
  /-- LOAD.24.BL (rule R145, `cw = 0x00D4`) -/
  | load24Bl (index base len : Nat)
  /-- LOAD.32.BL (rule R146, `cw = 0x00E4`) -/
  | load32Bl (index base len : Nat)
  /-- STORE.1.LM (rule R153, `cw = 0x0005`) -/
  | store1Lm (index : Nat) (value : BitVec 32) (base len : Nat)
  /-- STORE.2.LM (rule R154, `cw = 0x0015`) -/
  | store2Lm (index : Nat) (value : BitVec 32) (base len : Nat)
  /-- STORE.4.LM (rule R155, `cw = 0x0025`) -/
  | store4Lm (index : Nat) (value : BitVec 32) (base len : Nat)
  /-- STORE.8.LM (rule R156, `cw = 0x0035`) -/
  | store8Lm (index : Nat) (value : BitVec 32) (base len : Nat)
  /-- STORE.16.LM (rule R157, `cw = 0x0045`) -/
  | store16Lm (index : Nat) (value : BitVec 32) (base len : Nat)
  /-- STORE.24.LM (rule R158, `cw = 0x0055`) -/
  | store24Lm (index : Nat) (value : BitVec 32) (base len : Nat)
  /-- STORE.32.LM (rule R159, `cw = 0x0065`) -/
  | store32Lm (index : Nat) (value : BitVec 32) (base len : Nat)
  /-- STORE.1.BL (rule R160, `cw = 0x0085`) -/
  | store1Bl (index : Nat) (value : BitVec 32) (base len : Nat)
  /-- STORE.2.BL (rule R161, `cw = 0x0095`) -/
  | store2Bl (index : Nat) (value : BitVec 32) (base len : Nat)
  /-- STORE.4.BL (rule R162, `cw = 0x00A5`) -/
  | store4Bl (index : Nat) (value : BitVec 32) (base len : Nat)
  /-- STORE.8.BL (rule R163, `cw = 0x00B5`) -/
  | store8Bl (index : Nat) (value : BitVec 32) (base len : Nat)
  /-- STORE.16.BL (rule R164, `cw = 0x00C5`) -/
  | store16Bl (index : Nat) (value : BitVec 32) (base len : Nat)
  /-- STORE.24.BL (rule R165, `cw = 0x00D5`) -/
  | store24Bl (index : Nat) (value : BitVec 32) (base len : Nat)
  /-- STORE.32.BL (rule R166, `cw = 0x00E5`) -/
  | store32Bl (index : Nat) (value : BitVec 32) (base len : Nat)
  /-- TO_LE_BYTES.1 (rule R179, `cw = 0x0006`) -/
  | toLeBytes1 (value : BitVec 32)
  /-- TO_LE_BYTES.2 (rule R180, `cw = 0x0016`) -/
  | toLeBytes2 (value : BitVec 32)
  /-- TO_LE_BYTES.4 (rule R181, `cw = 0x0026`) -/
  | toLeBytes4 (value : BitVec 32)
  /-- TO_LE_BYTES.8 (rule R182, `cw = 0x0036`) -/
  | toLeBytes8 (value : BitVec 32)
  /-- TO_LE_BYTES.16 (rule R183, `cw = 0x0046`) -/
  | toLeBytes16 (value : BitVec 32)
  /-- TO_LE_BYTES.24 (rule R184, `cw = 0x0056`) -/
  | toLeBytes24 (value : BitVec 32)
  /-- TO_LE_BYTES.32 (rule R185, `cw = 0x0066`) -/
  | toLeBytes32 (value : BitVec 32)
  /-- TO_BE_BYTES.1 (rule R187, `cw = 0x0007`) -/
  | toBeBytes1 (value : BitVec 32)
  /-- TO_BE_BYTES.2 (rule R188, `cw = 0x0017`) -/
  | toBeBytes2 (value : BitVec 32)
  /-- TO_BE_BYTES.4 (rule R189, `cw = 0x0027`) -/
  | toBeBytes4 (value : BitVec 32)
  /-- TO_BE_BYTES.8 (rule R190, `cw = 0x0037`) -/
  | toBeBytes8 (value : BitVec 32)
  /-- TO_BE_BYTES.16 (rule R191, `cw = 0x0047`) -/
  | toBeBytes16 (value : BitVec 32)
  /-- TO_BE_BYTES.24 (rule R192, `cw = 0x0057`) -/
  | toBeBytes24 (value : BitVec 32)
  /-- TO_BE_BYTES.32 (rule R193, `cw = 0x0067`) -/
  | toBeBytes32 (value : BitVec 32)
deriving DecidableEq, Repr

end Sys2Proof
end

