-- ==== Sys2Proof/WellFormed.lean ====
section
/-! DEFINITION. Which instructions the command port can carry: each operand below the width of its port (R5, R10). -/

namespace Sys2Proof

/-- `index < 2^IDXW`, `base < 2^ADDRW`, `len < 2^LENW`: the operand values a host can present (R5). -/
def operandsFit (p : Params) (index base len : Nat) : Bool :=
  decide (index < 2 ^ p.idxw) && decide (base < 2 ^ p.addrw) && decide (len < 2 ^ p.lenw)

/-- A command record whose fields fit their ports (R5). -/
def Command.fits (p : Params) (c : Command) : Bool :=
  operandsFit p c.index c.base c.len

/-- An instruction the command port can carry. The 32-bit `value` always fits. -/
def Instr.wellFormed (p : Params) : Instr → Bool
    | .new1 _ | .new2 _ | .new4 _ | .new8 _ | .new16 _ | .new24 _ | .new32 _ | .fromU32w1 _ | .fromU32w2 _
    | .fromU32w4 _ | .fromU32w8 _ | .fromU32w16 _ | .fromU32w24 _ | .fromU32w32 _ | .intoInner1 _
    | .intoInner2 _ | .intoInner4 _ | .intoInner8 _ | .intoInner16 _ | .intoInner24 _ | .intoInner32 _
    | .toLeBytes1 _ | .toLeBytes2 _ | .toLeBytes4 _ | .toLeBytes8 _ | .toLeBytes16 _ | .toLeBytes24 _
    | .toLeBytes32 _ | .toBeBytes1 _ | .toBeBytes2 _ | .toBeBytes4 _ | .toBeBytes8 _ | .toBeBytes16 _
    | .toBeBytes24 _ | .toBeBytes32 _ => true
    | .load1Lm index base len | .load2Lm index base len | .load4Lm index base len | .load8Lm index base len
    | .load16Lm index base len | .load24Lm index base len | .load32Lm index base len | .load1Bl index base len
    | .load2Bl index base len | .load4Bl index base len | .load8Bl index base len | .load16Bl index base len
    | .load24Bl index base len | .load32Bl index base len =>
    operandsFit p index base len
    | .store1Lm index _ base len | .store2Lm index _ base len | .store4Lm index _ base len
    | .store8Lm index _ base len | .store16Lm index _ base len | .store24Lm index _ base len
    | .store32Lm index _ base len | .store1Bl index _ base len | .store2Bl index _ base len
    | .store4Bl index _ base len | .store8Bl index _ base len | .store16Bl index _ base len
    | .store24Bl index _ base len | .store32Bl index _ base len =>
    operandsFit p index base len

end Sys2Proof
end

