-- ==== Sys2Proof/Decode.lean ====
section
/-! DEFINITION. The control word (R61 to R64), the decoder (R68 a to d, R73), the encoder, and the textual form (R71). -/

namespace Sys2Proof

/-- The instruction of a shape: the table of R69, read from (operation, width, order) to command. -/
def Instr.ofShape : Shape → Instr
  | .value .new .w1 value => .new1 value
  | .value .new .w2 value => .new2 value
  | .value .new .w4 value => .new4 value
  | .value .new .w8 value => .new8 value
  | .value .new .w16 value => .new16 value
  | .value .new .w24 value => .new24 value
  | .value .new .w32 value => .new32 value
  | .value .fromU32 .w1 value => .fromU32w1 value
  | .value .fromU32 .w2 value => .fromU32w2 value
  | .value .fromU32 .w4 value => .fromU32w4 value
  | .value .fromU32 .w8 value => .fromU32w8 value
  | .value .fromU32 .w16 value => .fromU32w16 value
  | .value .fromU32 .w24 value => .fromU32w24 value
  | .value .fromU32 .w32 value => .fromU32w32 value
  | .value .intoInner .w1 value => .intoInner1 value
  | .value .intoInner .w2 value => .intoInner2 value
  | .value .intoInner .w4 value => .intoInner4 value
  | .value .intoInner .w8 value => .intoInner8 value
  | .value .intoInner .w16 value => .intoInner16 value
  | .value .intoInner .w24 value => .intoInner24 value
  | .value .intoInner .w32 value => .intoInner32 value
  | .load .w1 .littleEndianMsb0 index base len => .load1Lm index base len
  | .load .w2 .littleEndianMsb0 index base len => .load2Lm index base len
  | .load .w4 .littleEndianMsb0 index base len => .load4Lm index base len
  | .load .w8 .littleEndianMsb0 index base len => .load8Lm index base len
  | .load .w16 .littleEndianMsb0 index base len => .load16Lm index base len
  | .load .w24 .littleEndianMsb0 index base len => .load24Lm index base len
  | .load .w32 .littleEndianMsb0 index base len => .load32Lm index base len
  | .load .w1 .bigEndianLsb0 index base len => .load1Bl index base len
  | .load .w2 .bigEndianLsb0 index base len => .load2Bl index base len
  | .load .w4 .bigEndianLsb0 index base len => .load4Bl index base len
  | .load .w8 .bigEndianLsb0 index base len => .load8Bl index base len
  | .load .w16 .bigEndianLsb0 index base len => .load16Bl index base len
  | .load .w24 .bigEndianLsb0 index base len => .load24Bl index base len
  | .load .w32 .bigEndianLsb0 index base len => .load32Bl index base len
  | .store .w1 .littleEndianMsb0 index value base len => .store1Lm index value base len
  | .store .w2 .littleEndianMsb0 index value base len => .store2Lm index value base len
  | .store .w4 .littleEndianMsb0 index value base len => .store4Lm index value base len
  | .store .w8 .littleEndianMsb0 index value base len => .store8Lm index value base len
  | .store .w16 .littleEndianMsb0 index value base len => .store16Lm index value base len
  | .store .w24 .littleEndianMsb0 index value base len => .store24Lm index value base len
  | .store .w32 .littleEndianMsb0 index value base len => .store32Lm index value base len
  | .store .w1 .bigEndianLsb0 index value base len => .store1Bl index value base len
  | .store .w2 .bigEndianLsb0 index value base len => .store2Bl index value base len
  | .store .w4 .bigEndianLsb0 index value base len => .store4Bl index value base len
  | .store .w8 .bigEndianLsb0 index value base len => .store8Bl index value base len
  | .store .w16 .bigEndianLsb0 index value base len => .store16Bl index value base len
  | .store .w24 .bigEndianLsb0 index value base len => .store24Bl index value base len
  | .store .w32 .bigEndianLsb0 index value base len => .store32Bl index value base len
  | .value .toLeBytes .w1 value => .toLeBytes1 value
  | .value .toLeBytes .w2 value => .toLeBytes2 value
  | .value .toLeBytes .w4 value => .toLeBytes4 value
  | .value .toLeBytes .w8 value => .toLeBytes8 value
  | .value .toLeBytes .w16 value => .toLeBytes16 value
  | .value .toLeBytes .w24 value => .toLeBytes24 value
  | .value .toLeBytes .w32 value => .toLeBytes32 value
  | .value .toBeBytes .w1 value => .toBeBytes1 value
  | .value .toBeBytes .w2 value => .toBeBytes2 value
  | .value .toBeBytes .w4 value => .toBeBytes4 value
  | .value .toBeBytes .w8 value => .toBeBytes8 value
  | .value .toBeBytes .w16 value => .toBeBytes16 value
  | .value .toBeBytes .w24 value => .toBeBytes24 value
  | .value .toBeBytes .w32 value => .toBeBytes32 value

/-- The shape of an instruction: its operation, width, order and operands. -/
def Instr.shape : Instr → Shape
  | .new1 value => .value .new .w1 value
  | .new2 value => .value .new .w2 value
  | .new4 value => .value .new .w4 value
  | .new8 value => .value .new .w8 value
  | .new16 value => .value .new .w16 value
  | .new24 value => .value .new .w24 value
  | .new32 value => .value .new .w32 value
  | .fromU32w1 value => .value .fromU32 .w1 value
  | .fromU32w2 value => .value .fromU32 .w2 value
  | .fromU32w4 value => .value .fromU32 .w4 value
  | .fromU32w8 value => .value .fromU32 .w8 value
  | .fromU32w16 value => .value .fromU32 .w16 value
  | .fromU32w24 value => .value .fromU32 .w24 value
  | .fromU32w32 value => .value .fromU32 .w32 value
  | .intoInner1 value => .value .intoInner .w1 value
  | .intoInner2 value => .value .intoInner .w2 value
  | .intoInner4 value => .value .intoInner .w4 value
  | .intoInner8 value => .value .intoInner .w8 value
  | .intoInner16 value => .value .intoInner .w16 value
  | .intoInner24 value => .value .intoInner .w24 value
  | .intoInner32 value => .value .intoInner .w32 value
  | .load1Lm index base len => .load .w1 .littleEndianMsb0 index base len
  | .load2Lm index base len => .load .w2 .littleEndianMsb0 index base len
  | .load4Lm index base len => .load .w4 .littleEndianMsb0 index base len
  | .load8Lm index base len => .load .w8 .littleEndianMsb0 index base len
  | .load16Lm index base len => .load .w16 .littleEndianMsb0 index base len
  | .load24Lm index base len => .load .w24 .littleEndianMsb0 index base len
  | .load32Lm index base len => .load .w32 .littleEndianMsb0 index base len
  | .load1Bl index base len => .load .w1 .bigEndianLsb0 index base len
  | .load2Bl index base len => .load .w2 .bigEndianLsb0 index base len
  | .load4Bl index base len => .load .w4 .bigEndianLsb0 index base len
  | .load8Bl index base len => .load .w8 .bigEndianLsb0 index base len
  | .load16Bl index base len => .load .w16 .bigEndianLsb0 index base len
  | .load24Bl index base len => .load .w24 .bigEndianLsb0 index base len
  | .load32Bl index base len => .load .w32 .bigEndianLsb0 index base len
  | .store1Lm index value base len => .store .w1 .littleEndianMsb0 index value base len
  | .store2Lm index value base len => .store .w2 .littleEndianMsb0 index value base len
  | .store4Lm index value base len => .store .w4 .littleEndianMsb0 index value base len
  | .store8Lm index value base len => .store .w8 .littleEndianMsb0 index value base len
  | .store16Lm index value base len => .store .w16 .littleEndianMsb0 index value base len
  | .store24Lm index value base len => .store .w24 .littleEndianMsb0 index value base len
  | .store32Lm index value base len => .store .w32 .littleEndianMsb0 index value base len
  | .store1Bl index value base len => .store .w1 .bigEndianLsb0 index value base len
  | .store2Bl index value base len => .store .w2 .bigEndianLsb0 index value base len
  | .store4Bl index value base len => .store .w4 .bigEndianLsb0 index value base len
  | .store8Bl index value base len => .store .w8 .bigEndianLsb0 index value base len
  | .store16Bl index value base len => .store .w16 .bigEndianLsb0 index value base len
  | .store24Bl index value base len => .store .w24 .bigEndianLsb0 index value base len
  | .store32Bl index value base len => .store .w32 .bigEndianLsb0 index value base len
  | .toLeBytes1 value => .value .toLeBytes .w1 value
  | .toLeBytes2 value => .value .toLeBytes .w2 value
  | .toLeBytes4 value => .value .toLeBytes .w4 value
  | .toLeBytes8 value => .value .toLeBytes .w8 value
  | .toLeBytes16 value => .value .toLeBytes .w16 value
  | .toLeBytes24 value => .value .toLeBytes .w24 value
  | .toLeBytes32 value => .value .toLeBytes .w32 value
  | .toBeBytes1 value => .value .toBeBytes .w1 value
  | .toBeBytes2 value => .value .toBeBytes .w2 value
  | .toBeBytes4 value => .value .toBeBytes .w4 value
  | .toBeBytes8 value => .value .toBeBytes .w8 value
  | .toBeBytes16 value => .value .toBeBytes .w16 value
  | .toBeBytes24 value => .value .toBeBytes .w24 value
  | .toBeBytes32 value => .value .toBeBytes .w32 value

/-- `cw[3:0]` (R61). -/
def opField (cw : BitVec 16) : BitVec 4 := cw.extractLsb' 0 4

/-- `cw[6:4]` (R61). -/
def wcodeField (cw : BitVec 16) : BitVec 3 := cw.extractLsb' 4 3

/-- `cw[7]` (R61). -/
def ordField (cw : BitVec 16) : Bool := cw.getLsbD 7

/-- `cw[15:8]` (R61). -/
def reservedField (cw : BitVec 16) : BitVec 8 := cw.extractLsb' 8 8

/-- Width codes 0 to 6; 7 names no width (R63). -/
def decodeWidth (wcode : BitVec 3) : Option Width :=
  match wcode.toNat with
  | 0 => some .w1
  | 1 => some .w2
  | 2 => some .w4
  | 3 => some .w8
  | 4 => some .w16
  | 5 => some .w24
  | 6 => some .w32
  | _ => none

/-- Order codes (R64). -/
def decodeOrder (ord : Bool) : DataOrder :=
  if ord then .bigEndianLsb0 else .littleEndianMsb0

/-- A value operation: `cw[7]` must be 0 (R68 d), and only `value` is read (R65). -/
def decodeValueOp (op : ValueOp) (w : Width) (c : Command) : Except IllegalWord Shape :=
  if ordField c.cw then .error .orderOnValueOperation else .ok (.value op w c.value)

/-- The operation codes of R62 at a known width; codes 0 and 8 to 15 name no operation (R68 b). -/
def decodeOperation (w : Width) (c : Command) : Except IllegalWord Shape :=
  match (opField c.cw).toNat with
  | 1 => decodeValueOp .new w c
  | 2 => decodeValueOp .fromU32 w c
  | 3 => decodeValueOp .intoInner w c
  | 4 => .ok (.load w (decodeOrder (ordField c.cw)) c.index c.base c.len)
  | 5 => .ok (.store w (decodeOrder (ordField c.cw)) c.index c.value c.base c.len)
  | 6 => decodeValueOp .toLeBytes w c
  | 7 => decodeValueOp .toBeBytes w c
  | _ => .error .noOperation

/-- Conditions (a) to (d) of R68, then the fields. The order of the tests cannot be observed (R73). -/
def decodeShape (c : Command) : Except IllegalWord Shape :=
  if reservedField c.cw ≠ 0 then .error .reservedBits
  else
    match decodeWidth (wcodeField c.cw) with
    | none => .error .noWidth
    | some w => decodeOperation w c

/-- The decoder of R73: total on every command record. Condition (e) of R68, the descriptor, is tested by the meanings
of LOAD and STORE (R130, R150 step 1; log 14). -/
def decode (c : Command) : Except IllegalWord Instr :=
  match decodeShape c with
  | .ok sh => .ok (Instr.ofShape sh)
  | .error e => .error e

/-- R62. -/
def ValueOp.code : ValueOp → BitVec 4
  | .new => 0x1
  | .fromU32 => 0x2
  | .intoInner => 0x3
  | .toLeBytes => 0x6
  | .toBeBytes => 0x7

/-- R63. -/
def Width.code : Width → BitVec 3
  | .w1 => 0
  | .w2 => 1
  | .w4 => 2
  | .w8 => 3
  | .w16 => 4
  | .w24 => 5
  | .w32 => 6

/-- R64. -/
def DataOrder.code : DataOrder → BitVec 1
  | .littleEndianMsb0 => 0
  | .bigEndianLsb0 => 1

/-- The pattern `00000000 d www pppp` of R61. -/
def controlWord (d : BitVec 1) (www : BitVec 3) (pppp : BitVec 4) : BitVec 16 :=
  0#8 ++ d ++ www ++ pppp

/-- The encoder on shapes: fields an operation ignores are assembled as zero (R71). -/
def Shape.encode : Shape → Command
  | .value op w v => ⟨controlWord 0 w.code op.code, 0, v, 0, 0⟩
  | .load w o index base len => ⟨controlWord o.code w.code 0x4, index, 0, base, len⟩
  | .store w o index v base len => ⟨controlWord o.code w.code 0x5, index, v, base, len⟩

/-- The command record of an instruction (R61 to R65, R71). -/
def encode (i : Instr) : Command := i.shape.encode

/-- The operand fields an operation reads agree with a command record (R65); the fields it ignores are free. -/
def Shape.readsFrom (c : Command) : Shape → Bool
  | .value _ _ v => decide (c.value = v)
  | .load _ _ index base len => decide (c.index = index) && decide (c.base = base) && decide (c.len = len)
  | .store _ _ index v base len =>
    decide (c.index = index) && decide (c.value = v) && decide (c.base = base) && decide (c.len = len)

/-- A command record from the opcode table's bits: the low 16 bits are the control word, the operand fields are zero
(log 15). -/
def Command.ofTableWord (nbits w : Nat) : Command :=
  ⟨BitVec.ofNat 16 (w % 2 ^ nbits), 0, 0, 0, 0⟩

/-- The instruction the decoder reads from a table row's bits. -/
def decodeTableWord (nbits w : Nat) : Option Instr :=
  match decode (Command.ofTableWord nbits w) with
  | .ok i => some i
  | .error _ => none

/-! The textual form of R71, numbers in decimal. -/

/-- The operation name of R71. -/
def ValueOp.name : ValueOp → String
  | .new => "NEW"
  | .fromU32 => "FROM_U32"
  | .intoInner => "INTO_INNER"
  | .toLeBytes => "TO_LE_BYTES"
  | .toBeBytes => "TO_BE_BYTES"

/-- The width in decimal (R71). -/
def Width.name : Width → String
  | .w1 => "1"
  | .w2 => "2"
  | .w4 => "4"
  | .w8 => "8"
  | .w16 => "16"
  | .w24 => "24"
  | .w32 => "32"

/-- The order suffix (R71). -/
def DataOrder.name : DataOrder → String
  | .littleEndianMsb0 => "LM"
  | .bigEndianLsb0 => "BL"

/-- The mnemonic of R71. -/
def Shape.mnemonic : Shape → String
  | .value op w _ => op.name ++ "." ++ w.name
  | .load w o _ _ _ => "LOAD." ++ w.name ++ "." ++ o.name
  | .store w o _ _ _ _ => "STORE." ++ w.name ++ "." ++ o.name

/-- The mnemonic of R71. -/
def Instr.mnemonic (i : Instr) : String := i.shape.mnemonic

/-- A command in the syntax of R71; ignored fields are not written. -/
def Instr.text (i : Instr) : String :=
  i.mnemonic ++
    match i.shape with
    | .value _ _ v => " " ++ v.toNat.repr
    | .load _ _ index base len => " [" ++ base.repr ++ ", " ++ len.repr ++ "], " ++ index.repr
    | .store _ _ index v base len =>
      " [" ++ base.repr ++ ", " ++ len.repr ++ "], " ++ index.repr ++ ", " ++ v.toNat.repr

end Sys2Proof
end

