-- ==== Sys2Proof/Machine/State.lean ====
section
/-! DEFINITION. The state of the machine: the block's registers and ports (R31 to R34), the memory behind the memory
port (R30), the host's command list (R22, R246), and the inputs of the coming clock edges (R230). -/

namespace Sys2Proof.Machine

/-- The statuses of a response (R67, R204); the two-bit field has no other value. -/
inductive Status where
  /-- `0b00`: the operation completed -/
  | ok
  /-- `0b01`: a LOAD out of bounds; not an error (R201) -/
  | empty
  /-- `0b10`: a STORE out of bounds; an error (R202) -/
  | outOfBounds
  /-- `0b11`: the command names no operation; an error (R203) -/
  | illegal
deriving DecidableEq, Repr

/-- The record on the response port (R66). -/
structure Response where
  status : Status
  value : BitVec 32
  nbytes : BitVec 3
deriving DecidableEq, Repr

/-- A completed one-byte access of the memory port (R44). -/
inductive Access where
  | read (addr : Nat)
  | write (addr : Nat) (byte : Byte)
deriving DecidableEq, Repr

/-- What the block does next for the command in progress: a memory request (R33) or the response (R32). -/
inductive Action where
  | read (addr : Nat)
  | write (addr : Nat) (byte : Byte)
  | respond (r : Response)
deriving DecidableEq, Repr

/-- What the outside drives at one rising edge of `clk` (R230). -/
structure Edge where
  /-- bytes written by other agents since the previous edge, in order (R52, R237; log 16) -/
  agents : List Host.Cell
  /-- `rst` (R230) -/
  rst : Bool
  /-- if `rst` cuts off an outstanding request: does it still take effect? (R232; log 10) -/
  lands : Bool
  /-- `cmd_valid`, if the host's list has a command at `pos` (R31) -/
  cmdValid : Bool
  /-- `rsp_ready` (R32) -/
  rspReady : Bool
  /-- `mem_req_ready` (R33) -/
  memReqReady : Bool
  /-- `mem_rsp_valid`, if a request is outstanding (R33) -/
  memRspValid : Bool
  /-- `mem_rdata` of a memory that does not return the last value written (R204 d; log 9); `none`: it does (R46) -/
  memRdata : Option Byte
deriving DecidableEq, Repr

/-- An edge at which the host and the memory are ready and nobody disturbs the block (R245, D27). -/
def Edge.undisturbed : Edge := ⟨[], false, false, true, true, true, true, none⟩

/-- The bytes of memory that do not read as `Config.unlistedByte`, addresses strictly rising. -/
abbrev Memory := List Host.Cell

/-- The canonical form: addresses strictly rising, and no entry equal to what an unlisted address reads as. -/
def Memory.wf (m : Memory) : Bool :=
  decide (m.Pairwise (fun c d => c.1 < d.1)) && m.all (fun c => c.2 != Config.unlistedByte)

/-- The whole machine. -/
structure State where
  /-- IDXW, LENW, ADDRW (R5; log 1) -/
  params : Params
  /-- the level of `rst` at the last edge (R230) -/
  rst : Bool
  /-- a command runs: from its acceptance to the taking of its response (R34) -/
  busy : Bool
  /-- the sampled operands `cw`, `index`, `value`, `base`, `len` (R34) -/
  op : Command
  /-- the byte counter (R34; log 7) -/
  k : BitVec 3
  /-- the read latch (R34; log 7) -/
  rd : BitVec 32
  /-- `rsp_valid` (R32) -/
  rspValid : Bool
  /-- `rsp_status` (R32, R67) -/
  rspStatus : Status
  /-- `rsp_value` (R32) -/
  rspValue : BitVec 32
  /-- `rsp_nbytes` (R32) -/
  rspNbytes : BitVec 3
  /-- `mem_req_valid` (R33) -/
  memReqValid : Bool
  /-- a request was accepted and its completion pulse has not come (R33, R232) -/
  memOutstanding : Bool
  /-- `mem_we` (R33; between requests: log 20) -/
  memWe : Bool
  /-- `mem_addr` (R33; between requests: log 20) -/
  memAddr : Nat
  /-- `mem_wdata` (R33; between requests: log 20) -/
  memWdata : Byte
  /-- the byte memory (R30) -/
  mem : Memory
  /-- the host's list of commands (R22, R246; log 4) -/
  program : List Command
  /-- the host's position in it (R22) -/
  pos : Nat
  /-- the responses the host has taken, in order (R246) -/
  taken : List Response
  /-- the inputs of the coming edges; empty: nothing disturbs the block (log 5) -/
  agenda : List Edge
  /-- the model's own record of the completed accesses, oldest first (R44; log 12) -/
  trace : List Access
  /-- the model's own count of the unspecified values drawn so far (`Config.unspecified`; log 8) -/
  unspec : Nat
deriving DecidableEq, Repr

/-- Why the machine stops. -/
inductive Fault where
  /-- An access to an address at or above 2^ADDRW, which does not exist (R30). Raised by the one operation that performs
  an access, and by another agent's write in the agenda; no command raises it (R118). Safe: nothing is claimed of an
  address that does not exist. -/
  | noSuchAddress (addr : Nat)
deriving DecidableEq, Repr

/-- Why the model gives no meaning. -/
inductive Refusal where
  /-- An instruction without a meaning. Raised by no arm of `exec`. Safe. -/
  | notModelled (mnemonic : String)
deriving DecidableEq, Repr

/-- What a meaning answers. -/
abbrev Result := Host.Outcome State Fault Refusal

/-- The machine right after reset (R36, R231), with no host attached (log 4). Values R36 leaves unspecified are log 3's;
memory is log 2's. -/
def State.reset : State where
  params := Config.defaultParams
  rst := false
  busy := false
  op := ⟨0, 0, 0, 0, 0⟩
  k := 0
  rd := 0
  rspValid := false
  rspStatus := .ok
  rspValue := 0
  rspNbytes := 0
  memReqValid := false
  memOutstanding := false
  memWe := false
  memAddr := 0
  memWdata := 0
  mem := []
  program := []
  pos := 0
  taken := []
  agenda := []
  trace := []
  unspec := 0

end Sys2Proof.Machine
end

