-- ==== Sys2Proof/Machine/Flags.lean ====
section
/-! DEFINITION. The block has no flags (R23). What a flag would say stands in each response: the status code (R67) and
the error wire (R32). -/

namespace Sys2Proof.Machine

/-- The two-bit code (R67). -/
def Status.code : Status → BitVec 2
  | .ok => 0b00
  | .empty => 0b01
  | .outOfBounds => 0b10
  | .illegal => 0b11

/-- The status of a code: the two-bit field has no other value (R67). -/
def Status.ofCode (c : BitVec 2) : Status :=
  if c = 0b00 then .ok else if c = 0b01 then .empty else if c = 0b10 then .outOfBounds else .illegal

/-- `status[1]`, the error bit (R67). -/
def Status.isError (st : Status) : Bool := st.code.getLsbD 1

/-- `rsp_err`, always equal to `rsp_status[1]` (R32). -/
def State.rspErr (s : State) : Bool := s.rspStatus.isError

/-- `cmd_ready` is 1 only when `busy` is 0 and `rst` is 0 (R35). -/
def State.cmdReady (s : State) : Bool := !s.busy && !s.rst

/-- The name of a status in the textual form (R71). -/
def Status.name : Status → String
  | .ok => "OK"
  | .empty => "EMPTY"
  | .outOfBounds => "OUT_OF_BOUNDS"
  | .illegal => "ILLEGAL"

/-- A response to an instruction in the textual form of R71, numbers in decimal. -/
def Response.text (i : Instr) (r : Response) : String :=
  "-> " ++ r.status.name ++
    match r.status, i.shape with
    | .ok, .store _ _ _ _ _ _ => ""
    | .ok, .value .toLeBytes _ _ => " " ++ r.value.toNat.repr ++ " " ++ r.nbytes.toNat.repr
    | .ok, .value .toBeBytes _ _ => " " ++ r.value.toNat.repr ++ " " ++ r.nbytes.toNat.repr
    | .ok, _ => " " ++ r.value.toNat.repr
    | _, _ => ""

end Sys2Proof.Machine
end

