-- ==== Sys2Proof/Machine/Operands.lean ====
section
/-! DEFINITION. The facts of a width (the table of R6), the operand fields as the ports sample them (R31, R65), and the
address engine PFAE (41_address_engine.md), all over the natural numbers (R10). -/

namespace Sys2Proof

/-- Widths 1, 2 and 4 share bytes; the others own whole bytes (R13). -/
def Width.isSubByte : Width → Bool
  | .w1 | .w2 | .w4 => true
  | .w8 | .w16 | .w24 | .w32 => false

end Sys2Proof

namespace Sys2Proof.Machine

/-- Bits of a pixel (R6). -/
def bits : Width → Nat
  | .w1 => 1
  | .w2 => 2
  | .w4 => 4
  | .w8 => 8
  | .w16 => 16
  | .w24 => 24
  | .w32 => 32

/-- Bits of the storage integer (R6). -/
def storage : Width → Nat
  | .w1 | .w2 | .w4 | .w8 => 8
  | .w16 => 16
  | .w24 | .w32 => 32

/-- MASK, as a table and never by a shift through a full width (R6, R11, R26). -/
def mask : Width → BitVec 32
  | .w1 => 0x00000001
  | .w2 => 0x00000003
  | .w4 => 0x0000000F
  | .w8 => 0x000000FF
  | .w16 => 0x0000FFFF
  | .w24 => 0x00FFFFFF
  | .w32 => 0xFFFFFFFF

/-- The full range of the storage integer, as a table (R6, R26). -/
def storageMask (w : Width) : BitVec 32 :=
  match storage w with
  | 8 => 0x000000FF
  | 16 => 0x0000FFFF
  | _ => 0xFFFFFFFF

/-- `maskw(bits, v) = v & MASK` (R80). -/
def maskw (w : Width) (v : BitVec 32) : BitVec 32 := v &&& mask w

/-- `trunc_storage(v)`: the low `storage` bits (R81, R89). -/
def truncStorage (w : Width) (v : BitVec 32) : BitVec 32 := v &&& storageMask w


/-- The command record as the ports carry it: IDXW, ADDRW and LENW wires (R5, R31; log 11). -/
def sample (p : Params) (c : Command) : Command :=
  { c with index := c.index % 2 ^ p.idxw, base := c.base % 2 ^ p.addrw, len := c.len % 2 ^ p.lenw }

/-! ### The address engine -/

/-- `desc_ok`: the buffer does not cross the top of the address space (R119). -/
def descOk (p : Params) (base len : Nat) : Bool := decide (base + len ≤ 2 ^ p.addrw)

/-- `inb`: the pixel lies wholly inside the buffer (R111). -/
def inb (w : Width) (index len : Nat) : Bool := decide ((index + 1) * bits w ≤ len * 8)

/-- `n`: bytes of a byte-aligned pixel (R113). -/
def pixelBytes (w : Width) : Nat := bits w / 8

/-- `off`: byte offset of a byte-aligned pixel (R113). -/
def byteOffset (w : Width) (index : Nat) : Nat := index * pixelBytes w

/-- `per_byte`: pixels in a byte (R114). -/
def perByte (w : Width) : Nat := 8 / bits w

/-- `byte_index` (R114). -/
def byteIndex (w : Width) (index : Nat) : Nat := index / perByte w

/-- `slot` (R114). -/
def slot (w : Width) (index : Nat) : Nat := index % perByte w

/-- `shift` under each order (R115, R116). -/
def shift (w : Width) (o : DataOrder) (index : Nat) : Nat :=
  match o with
  | .littleEndianMsb0 => 8 - bits w - slot w index * bits w
  | .bigEndianLsb0 => slot w index * bits w

/-- The addresses of the pixel's bytes, ascending (R118). -/
def pixelAddrs (w : Width) (index base : Nat) : List Nat :=
  if w.isSubByte then [base + byteIndex w index]
  else (List.range (pixelBytes w)).map (fun j => base + byteOffset w index + j)

end Sys2Proof.Machine
end

