-- ==== Sys2Proof/Machine/Pixel.lean ====
section
/-! DEFINITION. Bytes of a value, the extractor and inserter MWPEI (R131, R132, R151, R152), and the packing of a byte
sequence (R176, R177). -/

namespace Sys2Proof.Machine

/-- Bits `8j+7` down to `8j` (R8, R41). -/
def byteAt (v : BitVec 32) (j : Nat) : Byte := v.extractLsb' (8 * j) 8

/-- The low `n` bytes, least significant first (R151, R178). -/
def bytesLe (n : Nat) (v : BitVec 32) : List Byte := (List.range n).map (byteAt v)

/-- The low `n` bytes, most significant first (R151, R186). -/
def bytesBe (n : Nat) (v : BitVec 32) : List Byte := (List.range n).map (fun j => byteAt v (n - 1 - j))

/-- `e[0] + e[1]*2^8 + ...`: the first byte in the low lane (R131, R177). -/
def packBytes : List Byte → BitVec 32
  | [] => 0
  | e :: es => e.setWidth 32 ||| (packBytes es <<< 8)

/-- `assemble(n, ord, b)` (R131). -/
def assemble (o : DataOrder) (b : List Byte) : BitVec 32 :=
  match o with
  | .littleEndianMsb0 => packBytes b
  | .bigEndianLsb0 => packBytes b.reverse

/-- `split(n, ord, v)` (R151). -/
def split (n : Nat) (o : DataOrder) (v : BitVec 32) : List Byte :=
  match o with
  | .littleEndianMsb0 => bytesLe n v
  | .bigEndianLsb0 => bytesBe n v

/-- The field mask of a sub-byte pixel in its byte (R116, R120). -/
def fieldMask (w : Width) (sh : Nat) : Byte := (mask w).setWidth 8 <<< sh

/-- `extract(bits, shift, b) = (b >> shift) & MASK` (R132). -/
def extractField (w : Width) (sh : Nat) (b : Byte) : BitVec 32 := (b >>> sh).setWidth 32 &&& mask w

/-- `insert(bits, shift, old, v)`: clear the field, then set it (R152). -/
def insertField (w : Width) (sh : Nat) (old : Byte) (v : BitVec 32) : Byte :=
  (old &&& ~~~fieldMask w sh) ||| (v.setWidth 8 <<< sh)

/-- `N = ceil(bits / 8)`: bytes of the sequence (R176). -/
def seqLen (w : Width) : Nat := (bits w + 7) / 8

/-- Byte `j` of the read latch replaced (R34; log 7). -/
def setByte (rd : BitVec 32) (j : Nat) (b : Byte) : BitVec 32 :=
  (rd &&& ~~~(0x000000FF#32 <<< (8 * j))) ||| (b.setWidth 32 <<< (8 * j))

end Sys2Proof.Machine
end

