-- ==== Sys2Proof/Machine/Ops.lean ====
section
/-! DEFINITION. The shared operations: memory, the command port, the response port and `raise`, the memory port, reset.
There is no trap to take and none to return from (R207, R210): `State.raise` is the whole mechanism. -/

namespace Sys2Proof.Machine

/-! ### Memory (R30, R40) -/

/-- The byte at an address. -/
def Memory.read (m : Memory) (a : Nat) : Byte :=
  match m.find? (fun c => c.1 == a) with
  | some c => c.2
  | none => Config.unlistedByte

/-- The entry of an address, put at its place. -/
def Memory.place (a : Nat) (v : Byte) : Memory → Memory
  | [] => [(a, v)]
  | c :: m => if a < c.1 then (a, v) :: c :: m else c :: Memory.place a v m

/-- The byte at an address replaced; the canonical form is kept. -/
def Memory.write (m : Memory) (a : Nat) (v : Byte) : Memory :=
  let rest := m.filter (fun c => c.1 != a)
  if v = Config.unlistedByte then rest else Memory.place a v rest

/-- Addresses run from 0 to 2^ADDRW - 1 (R30). -/
def addrExists (p : Params) (a : Nat) : Bool := decide (a < 2 ^ p.addrw)

/-! ### Command port (R31, R35) -/

/-- The command the host presents: the one at its position (R22). -/
def State.presented (s : State) : Option Command := s.program[s.pos]?

/-- The handshake on the command port: the five fields are latched (R31), the byte counter starts at 0 (R34). -/
def State.accept (c : Command) (s : State) : State :=
  { s with busy := true, op := c, k := 0 }

/-! ### Response port (R32, R66) -/

/-- A response with status OK. -/
def okResponse (value : BitVec 32) (nbytes : BitVec 3) : Response := ⟨.ok, value, nbytes⟩

/-- The response of a non-OK outcome: value and nbytes are 0 (R66, R209). -/
def failResponse (st : Status) : Response := ⟨st, 0, 0⟩

/-- `respond(status, value, nbytes)`: the response is offered (R9, R32). -/
def State.respond (s : State) (r : Response) : State :=
  { s with rspValid := true, rspStatus := r.status, rspValue := r.value, rspNbytes := r.nbytes }

/-- `raise <Status>`: ends the command with `(Status, 0, 0)`; nothing is saved, no control is transferred (R207). -/
def State.raise (s : State) (st : Status) : State := s.respond (failResponse st)

/-- The response on the port. -/
def State.response (s : State) : Response := ⟨s.rspStatus, s.rspValue, s.rspNbytes⟩

/-- The registers that are unspecified after reset and while idle hold free values that fit them (R34: the state of a
command dies with it; R36, U13; log 8). `mem_we` is not among those U13 and R36 list; the two callers set it to its
idle value 0 (R36; log 20). -/
def State.forget (s : State) : State :=
  let u := fun j => Config.unspecified (s.unspec + j)
  { s with op := sample s.params ⟨BitVec.ofNat 16 (u 0), u 1, BitVec.ofNat 32 (u 2), u 3, u 4⟩,
           k := BitVec.ofNat 3 (u 5), rd := BitVec.ofNat 32 (u 6),
           rspStatus := Status.ofCode (BitVec.ofNat 2 (u 7)), rspValue := BitVec.ofNat 32 (u 8),
           rspNbytes := BitVec.ofNat 3 (u 9), memAddr := u 10 % 2 ^ s.params.addrw,
           memWdata := BitVec.ofNat 8 (u 11), unspec := s.unspec + 12 }

/-- The host takes the response: the block is idle (R34, R210), the host's position advances by one (R22). No state of the
block outlives the command (R20, R147), so `mem_we` is 0 again, as in the idle block of R36 (DEDUCED, log 20). -/
def State.takeResponse (s : State) : State :=
  { s.forget with busy := false, rspValid := false, memWe := false, pos := s.pos + 1,
                  taken := s.taken ++ [s.response] }

/-! ### Memory port (R33) -/

/-- A read request is raised. `mem_wdata`, meaningful only with `mem_we` = 1 (R33), keeps what it held (log 20). -/
def State.raiseRead (s : State) (a : Nat) : State :=
  { s with memReqValid := true, memWe := false, memAddr := a }

/-- A write request is raised. -/
def State.raiseWrite (s : State) (a : Nat) (v : Byte) : State :=
  { s with memReqValid := true, memWe := true, memAddr := a, memWdata := v }

/-- The memory accepts the request. What `mem_we`, `mem_addr` and `mem_wdata` carry from here on the spec does not say: the
model keeps the request's values (DESIGN CHOICE, log 20). -/
def State.acceptRequest (s : State) : State :=
  { s with memReqValid := false, memOutstanding := true }

/-- The completion pulse of a read that returns `b`: the byte goes to the latch (log 7). The request's registers keep their
values (log 20). -/
def State.completeRead (s : State) (b : Byte) : State :=
  { s with memOutstanding := false, rd := setByte s.rd s.k.toNat b, k := s.k + 1,
           trace := s.trace ++ [.read s.memAddr] }

/-- The completion pulse of a write: the byte is in memory (log 9). The request's registers keep their values: `mem_we`
stays 1 until the command's next read, the taking of its response or a reset (DESIGN CHOICE, log 20). -/
def State.completeWrite (s : State) : State :=
  { s with memOutstanding := false, mem := s.mem.write s.memAddr s.memWdata, k := s.k + 1,
           trace := s.trace ++ [.write s.memAddr s.memWdata] }

/-- The outstanding request is performed. A read returns `rdata` if the memory breaks the duty of R46, else the byte in
memory. The port has no error signal (R33); an address that does not exist is the model's fault. -/
def completeRequest (rdata : Option Byte) (s : State) : Except Fault State :=
  if !addrExists s.params s.memAddr then .error (.noSuchAddress s.memAddr)
  else if s.memWe then .ok s.completeWrite
  else .ok (s.completeRead (rdata.getD (s.mem.read s.memAddr)))

/-- `MemRead(a, 1)`, undisturbed: the request is raised, accepted and completed (R9, R33, R46). -/
def busRead (a : Nat) (s : State) : Except Fault (Byte × State) := do
  let s' ← completeRequest none (s.raiseRead a).acceptRequest
  return (s.mem.read a, s')

/-- `MemWrite(a, 1, v)`, undisturbed (R9, R33). -/
def busWrite (a : Nat) (v : Byte) (s : State) : Except Fault State :=
  completeRequest none (s.raiseWrite a v).acceptRequest

/-- `n` reads at ascending addresses, each completed before the next is requested (R44, R49). -/
def busReads : Nat → Nat → State → Except Fault (List Byte × State)
  | 0, _, s => .ok ([], s)
  | n + 1, a, s => do
    let (b, s') ← busRead a s
    let (bs, s'') ← busReads n (a + 1) s'
    return (b :: bs, s'')

/-- Writes of the bytes at ascending addresses, each completed before the next is requested (R44, R49). -/
def busWrites : List Byte → Nat → State → Except Fault State
  | [], _, s => .ok s
  | v :: vs, a, s => do
    let s' ← busWrite a v s
    busWrites vs (a + 1) s'

/-- A meaning's outcome from its accesses. -/
def ofBus : Except Fault State → Result
  | .ok s => .next s
  | .error f => .fault f

/-! ### Other agents (R52, R215) and reset (R230 to R232) -/

/-- Another agent writes a byte. -/
def State.agentWrite (s : State) (a : Nat) (v : Byte) : State :=
  { s with mem := s.mem.write a v }

/-- The bytes other agents write between two edges, in order. -/
def agentWrites : List Host.Cell → State → Except Fault State
  | [], s => .ok s
  | (a, v) :: cs, s =>
    if !addrExists s.params a then .error (.noSuchAddress a) else agentWrites cs (s.agentWrite a v)

/-- The block enters the reset state of R36; memory and the host are not touched. `rst` is 1. A request cut off here is
over: no completion pulse of it comes later (DESIGN CHOICE, log 21). -/
def State.resetBlock (s : State) : State :=
  { s.forget with rst := true, busy := false, rspValid := false, memReqValid := false, memOutstanding := false,
                  memWe := false }

/-- `rst` returns to 0 (R231). -/
def State.dropReset (s : State) : State := { s with rst := false }

end Sys2Proof.Machine
end

