-- ==== Sys2Proof/Machine/ByteSequence.lean ====
section
/-! DEFINITION. The byte-sequence conversion (44_byte_sequence.md): TO_LE_BYTES (R178 to R185), TO_BE_BYTES
(R186 to R193). -/

namespace Sys2Proof.Machine

/-- The packed result of TO_LE_BYTES: least significant byte first, first byte in the low lane (R177, R178). -/
def toLeBytesValue (w : Width) (value : BitVec 32) : BitVec 32 :=
  packBytes (bytesLe (seqLen w) (maskw w value))

/-- The packed result of TO_BE_BYTES: most significant of the `N` bytes first, first byte in the low lane (R177, R186). -/
def toBeBytesValue (w : Width) (value : BitVec 32) : BitVec 32 :=
  packBytes (bytesBe (seqLen w) (maskw w value))

/-- TO_LE_BYTES at any width: no access, no failure; `nbytes = N` (R175 to R178). -/
def toLeBytes (w : Width) (value : BitVec 32) (s : State) : Result :=
  .next (s.respond (okResponse (toLeBytesValue w value) (BitVec.ofNat 3 (seqLen w))))

/-- TO_BE_BYTES at any width: no access, no failure; `nbytes = N` (R175 to R177, R186). -/
def toBeBytes (w : Width) (value : BitVec 32) (s : State) : Result :=
  .next (s.respond (okResponse (toBeBytesValue w value) (BitVec.ofNat 3 (seqLen w))))

/-- TO_LE_BYTES.1 (R179). -/
def execToLeBytes1 (value : BitVec 32) (s : State) : Result :=
  toLeBytes .w1 value s

/-- TO_LE_BYTES.2 (R180). -/
def execToLeBytes2 (value : BitVec 32) (s : State) : Result :=
  toLeBytes .w2 value s

/-- TO_LE_BYTES.4 (R181). -/
def execToLeBytes4 (value : BitVec 32) (s : State) : Result :=
  toLeBytes .w4 value s

/-- TO_LE_BYTES.8 (R182). -/
def execToLeBytes8 (value : BitVec 32) (s : State) : Result :=
  toLeBytes .w8 value s

/-- TO_LE_BYTES.16 (R183). -/
def execToLeBytes16 (value : BitVec 32) (s : State) : Result :=
  toLeBytes .w16 value s

/-- TO_LE_BYTES.24 (R184). -/
def execToLeBytes24 (value : BitVec 32) (s : State) : Result :=
  toLeBytes .w24 value s

/-- TO_LE_BYTES.32 (R185). -/
def execToLeBytes32 (value : BitVec 32) (s : State) : Result :=
  toLeBytes .w32 value s

/-- TO_BE_BYTES.1 (R187). -/
def execToBeBytes1 (value : BitVec 32) (s : State) : Result :=
  toBeBytes .w1 value s

/-- TO_BE_BYTES.2 (R188). -/
def execToBeBytes2 (value : BitVec 32) (s : State) : Result :=
  toBeBytes .w2 value s

/-- TO_BE_BYTES.4 (R189). -/
def execToBeBytes4 (value : BitVec 32) (s : State) : Result :=
  toBeBytes .w4 value s

/-- TO_BE_BYTES.8 (R190). -/
def execToBeBytes8 (value : BitVec 32) (s : State) : Result :=
  toBeBytes .w8 value s

/-- TO_BE_BYTES.16 (R191). -/
def execToBeBytes16 (value : BitVec 32) (s : State) : Result :=
  toBeBytes .w16 value s

/-- TO_BE_BYTES.24 (R192). -/
def execToBeBytes24 (value : BitVec 32) (s : State) : Result :=
  toBeBytes .w24 value s

/-- TO_BE_BYTES.32 (R193). -/
def execToBeBytes32 (value : BitVec 32) (s : State) : Result :=
  toBeBytes .w32 value s

end Sys2Proof.Machine
end

