-- ==== Sys2Proof/Machine/Load.lean ====
section
/-! DEFINITION. LOAD (42_load.md): the general rule R130 and the fourteen commands R133 to R146. -/

namespace Sys2Proof.Machine

/-- LOAD of a byte-aligned pixel: `n` reads in ascending order, then `assemble` (R130 step 3, R131). -/
def loadAligned (w : Width) (o : DataOrder) (index base : Nat) (s : State) : Except Fault State := do
  let (bytes, s') ← busReads (pixelBytes w) (base + byteOffset w index) s
  return s'.respond (okResponse (assemble o bytes) 0)

/-- LOAD of a sub-byte pixel: one read, then `extract` (R130 step 3, R132). -/
def loadSubByte (w : Width) (o : DataOrder) (index base : Nat) (s : State) : Except Fault State := do
  let (b, s') ← busRead (base + byteIndex w index) s
  return s'.respond (okResponse (extractField w (shift w o index) b) 0)

/-- LOAD at any width and order: legality of the descriptor, then bounds, then the accesses (R130, R205). -/
def load (w : Width) (o : DataOrder) (index base len : Nat) (s : State) : Result :=
  if !descOk s.params base len then .next (s.raise .illegal)
  else if !inb w index len then .next (s.raise .empty)
  else if w.isSubByte then ofBus (loadSubByte w o index base s)
  else ofBus (loadAligned w o index base s)

/-- LOAD.1.LM (R133). -/
def execLoad1Lm (index base len : Nat) (s : State) : Result :=
  load .w1 .littleEndianMsb0 index base len s

/-- LOAD.2.LM (R134). -/
def execLoad2Lm (index base len : Nat) (s : State) : Result :=
  load .w2 .littleEndianMsb0 index base len s

/-- LOAD.4.LM (R135). -/
def execLoad4Lm (index base len : Nat) (s : State) : Result :=
  load .w4 .littleEndianMsb0 index base len s

/-- LOAD.8.LM (R136). -/
def execLoad8Lm (index base len : Nat) (s : State) : Result :=
  load .w8 .littleEndianMsb0 index base len s

/-- LOAD.16.LM (R137). -/
def execLoad16Lm (index base len : Nat) (s : State) : Result :=
  load .w16 .littleEndianMsb0 index base len s

/-- LOAD.24.LM (R138). -/
def execLoad24Lm (index base len : Nat) (s : State) : Result :=
  load .w24 .littleEndianMsb0 index base len s

/-- LOAD.32.LM (R139). -/
def execLoad32Lm (index base len : Nat) (s : State) : Result :=
  load .w32 .littleEndianMsb0 index base len s

/-- LOAD.1.BL (R140). -/
def execLoad1Bl (index base len : Nat) (s : State) : Result :=
  load .w1 .bigEndianLsb0 index base len s

/-- LOAD.2.BL (R141). -/
def execLoad2Bl (index base len : Nat) (s : State) : Result :=
  load .w2 .bigEndianLsb0 index base len s

/-- LOAD.4.BL (R142). -/
def execLoad4Bl (index base len : Nat) (s : State) : Result :=
  load .w4 .bigEndianLsb0 index base len s

/-- LOAD.8.BL (R143). -/
def execLoad8Bl (index base len : Nat) (s : State) : Result :=
  load .w8 .bigEndianLsb0 index base len s

/-- LOAD.16.BL (R144). -/
def execLoad16Bl (index base len : Nat) (s : State) : Result :=
  load .w16 .bigEndianLsb0 index base len s

/-- LOAD.24.BL (R145). -/
def execLoad24Bl (index base len : Nat) (s : State) : Result :=
  load .w24 .bigEndianLsb0 index base len s

/-- LOAD.32.BL (R146). -/
def execLoad32Bl (index base len : Nat) (s : State) : Result :=
  load .w32 .bigEndianLsb0 index base len s

end Sys2Proof.Machine
end

