-- ==== Sys2Proof/Machine/MaskedValue.lean ====
section
/-! DEFINITION. The masked value family (40_masked_value.md): NEW (R81 to R88), FROM_U32 (R89 to R96),
INTO_INNER (R97 to R104). -/

namespace Sys2Proof.Machine

/-- The result of NEW: `maskw(bits, trunc_storage(value))` (R81). Port bits at and above the storage width are ignored. -/
def newValue (w : Width) (value : BitVec 32) : BitVec 32 :=
  maskw w (truncStorage w value)

/-- The result of FROM_U32: narrow to the storage width, truncating, then mask (R89). -/
def fromU32Value (w : Width) (value : BitVec 32) : BitVec 32 :=
  let narrowed := truncStorage w value
  maskw w narrowed

/-- The result of INTO_INNER: the operand masked again (R97). -/
def intoInnerValue (w : Width) (value : BitVec 32) : BitVec 32 :=
  maskw w value

/-- NEW at any width: no access, no failure (R81). -/
def maskNew (w : Width) (value : BitVec 32) (s : State) : Result :=
  .next (s.respond (okResponse (newValue w value) 0))

/-- FROM_U32 at any width: no access, no failure (R89). -/
def maskFromU32 (w : Width) (value : BitVec 32) (s : State) : Result :=
  .next (s.respond (okResponse (fromU32Value w value) 0))

/-- INTO_INNER at any width: no access, no failure (R97). -/
def maskIntoInner (w : Width) (value : BitVec 32) (s : State) : Result :=
  .next (s.respond (okResponse (intoInnerValue w value) 0))

/-- NEW.1 (R82). -/
def execNew1 (value : BitVec 32) (s : State) : Result :=
  maskNew .w1 value s

/-- NEW.2 (R83). -/
def execNew2 (value : BitVec 32) (s : State) : Result :=
  maskNew .w2 value s

/-- NEW.4 (R84). -/
def execNew4 (value : BitVec 32) (s : State) : Result :=
  maskNew .w4 value s

/-- NEW.8 (R85). -/
def execNew8 (value : BitVec 32) (s : State) : Result :=
  maskNew .w8 value s

/-- NEW.16 (R86). -/
def execNew16 (value : BitVec 32) (s : State) : Result :=
  maskNew .w16 value s

/-- NEW.24 (R87). -/
def execNew24 (value : BitVec 32) (s : State) : Result :=
  maskNew .w24 value s

/-- NEW.32 (R88). -/
def execNew32 (value : BitVec 32) (s : State) : Result :=
  maskNew .w32 value s

/-- FROM_U32.1 (R90). -/
def execFromU32w1 (value : BitVec 32) (s : State) : Result :=
  maskFromU32 .w1 value s

/-- FROM_U32.2 (R91). -/
def execFromU32w2 (value : BitVec 32) (s : State) : Result :=
  maskFromU32 .w2 value s

/-- FROM_U32.4 (R92). -/
def execFromU32w4 (value : BitVec 32) (s : State) : Result :=
  maskFromU32 .w4 value s

/-- FROM_U32.8 (R93). -/
def execFromU32w8 (value : BitVec 32) (s : State) : Result :=
  maskFromU32 .w8 value s

/-- FROM_U32.16 (R94). -/
def execFromU32w16 (value : BitVec 32) (s : State) : Result :=
  maskFromU32 .w16 value s

/-- FROM_U32.24 (R95). -/
def execFromU32w24 (value : BitVec 32) (s : State) : Result :=
  maskFromU32 .w24 value s

/-- FROM_U32.32 (R96). -/
def execFromU32w32 (value : BitVec 32) (s : State) : Result :=
  maskFromU32 .w32 value s

/-- INTO_INNER.1 (R98). -/
def execIntoInner1 (value : BitVec 32) (s : State) : Result :=
  maskIntoInner .w1 value s

/-- INTO_INNER.2 (R99). -/
def execIntoInner2 (value : BitVec 32) (s : State) : Result :=
  maskIntoInner .w2 value s

/-- INTO_INNER.4 (R100). -/
def execIntoInner4 (value : BitVec 32) (s : State) : Result :=
  maskIntoInner .w4 value s

/-- INTO_INNER.8 (R101). -/
def execIntoInner8 (value : BitVec 32) (s : State) : Result :=
  maskIntoInner .w8 value s

/-- INTO_INNER.16 (R102). -/
def execIntoInner16 (value : BitVec 32) (s : State) : Result :=
  maskIntoInner .w16 value s

/-- INTO_INNER.24 (R103). -/
def execIntoInner24 (value : BitVec 32) (s : State) : Result :=
  maskIntoInner .w24 value s

/-- INTO_INNER.32 (R104). -/
def execIntoInner32 (value : BitVec 32) (s : State) : Result :=
  maskIntoInner .w32 value s

end Sys2Proof.Machine
end

