-- ==== Sys2Proof/Machine/Store.lean ====
section
/-! DEFINITION. STORE (43_store.md): the general rule R150 and the fourteen commands R153 to R166. -/

namespace Sys2Proof.Machine

/-- STORE of a byte-aligned pixel: `n` writes in ascending order, no read (R150 step 4, R151). -/
def storeAligned (w : Width) (o : DataOrder) (index : Nat) (v : BitVec 32) (base : Nat) (s : State) :
    Except Fault State := do
  let s' ← busWrites (split (pixelBytes w) o v) (base + byteOffset w index) s
  return s'.respond (okResponse 0 0)

/-- STORE of a sub-byte pixel: read the byte, `insert`, write it back even if unchanged (R150 steps 4 to 6, R152). -/
def storeSubByte (w : Width) (o : DataOrder) (index : Nat) (v : BitVec 32) (base : Nat) (s : State) :
    Except Fault State := do
  let (old, s') ← busRead (base + byteIndex w index) s
  let s'' ← busWrite (base + byteIndex w index) (insertField w (shift w o index) old v) s'
  return s''.respond (okResponse 0 0)

/-- STORE at any width and order: legality of the descriptor, masking of the operand, bounds, then the accesses
(R150, R205). -/
def store (w : Width) (o : DataOrder) (index : Nat) (value : BitVec 32) (base len : Nat) (s : State) : Result :=
  if !descOk s.params base len then .next (s.raise .illegal)
  else
    let v := maskw w value
    if !inb w index len then .next (s.raise .outOfBounds)
    else if w.isSubByte then ofBus (storeSubByte w o index v base s)
    else ofBus (storeAligned w o index v base s)

/-- STORE.1.LM (R153). -/
def execStore1Lm (index : Nat) (value : BitVec 32) (base len : Nat) (s : State) : Result :=
  store .w1 .littleEndianMsb0 index value base len s

/-- STORE.2.LM (R154). -/
def execStore2Lm (index : Nat) (value : BitVec 32) (base len : Nat) (s : State) : Result :=
  store .w2 .littleEndianMsb0 index value base len s

/-- STORE.4.LM (R155). -/
def execStore4Lm (index : Nat) (value : BitVec 32) (base len : Nat) (s : State) : Result :=
  store .w4 .littleEndianMsb0 index value base len s

/-- STORE.8.LM (R156). -/
def execStore8Lm (index : Nat) (value : BitVec 32) (base len : Nat) (s : State) : Result :=
  store .w8 .littleEndianMsb0 index value base len s

/-- STORE.16.LM (R157). -/
def execStore16Lm (index : Nat) (value : BitVec 32) (base len : Nat) (s : State) : Result :=
  store .w16 .littleEndianMsb0 index value base len s

/-- STORE.24.LM (R158). -/
def execStore24Lm (index : Nat) (value : BitVec 32) (base len : Nat) (s : State) : Result :=
  store .w24 .littleEndianMsb0 index value base len s

/-- STORE.32.LM (R159). -/
def execStore32Lm (index : Nat) (value : BitVec 32) (base len : Nat) (s : State) : Result :=
  store .w32 .littleEndianMsb0 index value base len s

/-- STORE.1.BL (R160). -/
def execStore1Bl (index : Nat) (value : BitVec 32) (base len : Nat) (s : State) : Result :=
  store .w1 .bigEndianLsb0 index value base len s

/-- STORE.2.BL (R161). -/
def execStore2Bl (index : Nat) (value : BitVec 32) (base len : Nat) (s : State) : Result :=
  store .w2 .bigEndianLsb0 index value base len s

/-- STORE.4.BL (R162). -/
def execStore4Bl (index : Nat) (value : BitVec 32) (base len : Nat) (s : State) : Result :=
  store .w4 .bigEndianLsb0 index value base len s

/-- STORE.8.BL (R163). -/
def execStore8Bl (index : Nat) (value : BitVec 32) (base len : Nat) (s : State) : Result :=
  store .w8 .bigEndianLsb0 index value base len s

/-- STORE.16.BL (R164). -/
def execStore16Bl (index : Nat) (value : BitVec 32) (base len : Nat) (s : State) : Result :=
  store .w16 .bigEndianLsb0 index value base len s

/-- STORE.24.BL (R165). -/
def execStore24Bl (index : Nat) (value : BitVec 32) (base len : Nat) (s : State) : Result :=
  store .w24 .bigEndianLsb0 index value base len s

/-- STORE.32.BL (R166). -/
def execStore32Bl (index : Nat) (value : BitVec 32) (base len : Nat) (s : State) : Result :=
  store .w32 .bigEndianLsb0 index value base len s

end Sys2Proof.Machine
end

