-- ==== Sys2Proof/Machine/Dispatch.lean ====
section
/-! DEFINITION. One arm per constructor of `Instr`, each one direct call of that instruction's meaning (R73 step 3). -/

namespace Sys2Proof.Machine

def exec (i : Instr) (s : State) : Host.Outcome State Fault Refusal :=
  match i with
  | .new1 value => Sys2Proof.Machine.execNew1 value s
  | .new2 value => Sys2Proof.Machine.execNew2 value s
  | .new4 value => Sys2Proof.Machine.execNew4 value s
  | .new8 value => Sys2Proof.Machine.execNew8 value s
  | .new16 value => Sys2Proof.Machine.execNew16 value s
  | .new24 value => Sys2Proof.Machine.execNew24 value s
  | .new32 value => Sys2Proof.Machine.execNew32 value s
  | .fromU32w1 value => Sys2Proof.Machine.execFromU32w1 value s
  | .fromU32w2 value => Sys2Proof.Machine.execFromU32w2 value s
  | .fromU32w4 value => Sys2Proof.Machine.execFromU32w4 value s
  | .fromU32w8 value => Sys2Proof.Machine.execFromU32w8 value s
  | .fromU32w16 value => Sys2Proof.Machine.execFromU32w16 value s
  | .fromU32w24 value => Sys2Proof.Machine.execFromU32w24 value s
  | .fromU32w32 value => Sys2Proof.Machine.execFromU32w32 value s
  | .intoInner1 value => Sys2Proof.Machine.execIntoInner1 value s
  | .intoInner2 value => Sys2Proof.Machine.execIntoInner2 value s
  | .intoInner4 value => Sys2Proof.Machine.execIntoInner4 value s
  | .intoInner8 value => Sys2Proof.Machine.execIntoInner8 value s
  | .intoInner16 value => Sys2Proof.Machine.execIntoInner16 value s
  | .intoInner24 value => Sys2Proof.Machine.execIntoInner24 value s
  | .intoInner32 value => Sys2Proof.Machine.execIntoInner32 value s
  | .load1Lm index base len => Sys2Proof.Machine.execLoad1Lm index base len s
  | .load2Lm index base len => Sys2Proof.Machine.execLoad2Lm index base len s
  | .load4Lm index base len => Sys2Proof.Machine.execLoad4Lm index base len s
  | .load8Lm index base len => Sys2Proof.Machine.execLoad8Lm index base len s
  | .load16Lm index base len => Sys2Proof.Machine.execLoad16Lm index base len s
  | .load24Lm index base len => Sys2Proof.Machine.execLoad24Lm index base len s
  | .load32Lm index base len => Sys2Proof.Machine.execLoad32Lm index base len s
  | .load1Bl index base len => Sys2Proof.Machine.execLoad1Bl index base len s
  | .load2Bl index base len => Sys2Proof.Machine.execLoad2Bl index base len s
  | .load4Bl index base len => Sys2Proof.Machine.execLoad4Bl index base len s
  | .load8Bl index base len => Sys2Proof.Machine.execLoad8Bl index base len s
  | .load16Bl index base len => Sys2Proof.Machine.execLoad16Bl index base len s
  | .load24Bl index base len => Sys2Proof.Machine.execLoad24Bl index base len s
  | .load32Bl index base len => Sys2Proof.Machine.execLoad32Bl index base len s
  | .store1Lm index value base len => Sys2Proof.Machine.execStore1Lm index value base len s
  | .store2Lm index value base len => Sys2Proof.Machine.execStore2Lm index value base len s
  | .store4Lm index value base len => Sys2Proof.Machine.execStore4Lm index value base len s
  | .store8Lm index value base len => Sys2Proof.Machine.execStore8Lm index value base len s
  | .store16Lm index value base len => Sys2Proof.Machine.execStore16Lm index value base len s
  | .store24Lm index value base len => Sys2Proof.Machine.execStore24Lm index value base len s
  | .store32Lm index value base len => Sys2Proof.Machine.execStore32Lm index value base len s
  | .store1Bl index value base len => Sys2Proof.Machine.execStore1Bl index value base len s
  | .store2Bl index value base len => Sys2Proof.Machine.execStore2Bl index value base len s
  | .store4Bl index value base len => Sys2Proof.Machine.execStore4Bl index value base len s
  | .store8Bl index value base len => Sys2Proof.Machine.execStore8Bl index value base len s
  | .store16Bl index value base len => Sys2Proof.Machine.execStore16Bl index value base len s
  | .store24Bl index value base len => Sys2Proof.Machine.execStore24Bl index value base len s
  | .store32Bl index value base len => Sys2Proof.Machine.execStore32Bl index value base len s
  | .toLeBytes1 value => Sys2Proof.Machine.execToLeBytes1 value s
  | .toLeBytes2 value => Sys2Proof.Machine.execToLeBytes2 value s
  | .toLeBytes4 value => Sys2Proof.Machine.execToLeBytes4 value s
  | .toLeBytes8 value => Sys2Proof.Machine.execToLeBytes8 value s
  | .toLeBytes16 value => Sys2Proof.Machine.execToLeBytes16 value s
  | .toLeBytes24 value => Sys2Proof.Machine.execToLeBytes24 value s
  | .toLeBytes32 value => Sys2Proof.Machine.execToLeBytes32 value s
  | .toBeBytes1 value => Sys2Proof.Machine.execToBeBytes1 value s
  | .toBeBytes2 value => Sys2Proof.Machine.execToBeBytes2 value s
  | .toBeBytes4 value => Sys2Proof.Machine.execToBeBytes4 value s
  | .toBeBytes8 value => Sys2Proof.Machine.execToBeBytes8 value s
  | .toBeBytes16 value => Sys2Proof.Machine.execToBeBytes16 value s
  | .toBeBytes24 value => Sys2Proof.Machine.execToBeBytes24 value s
  | .toBeBytes32 value => Sys2Proof.Machine.execToBeBytes32 value s

end Sys2Proof.Machine
end

