-- ==== Sys2Proof/Machine/Sequencer.lean ====
section
/-! DEFINITION. What one step does. With an empty agenda nothing disturbs the block, and the command the host presents
runs whole, as D27 allows: decode, then `exec`. Otherwise a step is one rising edge of `clk` with the inputs the agenda
gives (R230), at which the block makes at most one handshake (log 6): the accesses of a command are then separate steps,
between which other agents may write and `rst` may rise (R34, R46, R52, R232). -/

namespace Sys2Proof.Machine

/-- The response of a value operation (R66, R81, R89, R97, R178, R186). -/
def valueResponse (op : ValueOp) (w : Width) (v : BitVec 32) : Response :=
  match op with
  | .new => okResponse (newValue w v) 0
  | .fromU32 => okResponse (fromU32Value w v) 0
  | .intoInner => okResponse (intoInnerValue w v) 0
  | .toLeBytes => okResponse (toLeBytesValue w v) (BitVec.ofNat 3 (seqLen w))
  | .toBeBytes => okResponse (toBeBytesValue w v) (BitVec.ofNat 3 (seqLen w))

/-- LOAD after its checks: the next read, or the response when all bytes are latched (R130 steps 3 and 4). -/
def planLoad (w : Width) (o : DataOrder) (index base : Nat) (k : Nat) (rd : BitVec 32) : Action :=
  if w.isSubByte then
    if k = 0 then .read (base + byteIndex w index)
    else .respond (okResponse (extractField w (shift w o index) (byteAt rd 0)) 0)
  else if k < pixelBytes w then .read (base + byteOffset w index + k)
  else .respond (okResponse (assemble o (bytesLe (pixelBytes w) rd)) 0)

/-- STORE after its checks: the next access, or the response when all are done (R150 steps 4 to 7). -/
def planStore (w : Width) (o : DataOrder) (index : Nat) (v : BitVec 32) (base : Nat) (k : Nat) (rd : BitVec 32) :
    Action :=
  if w.isSubByte then
    if k = 0 then .read (base + byteIndex w index)
    else if k = 1 then .write (base + byteIndex w index) (insertField w (shift w o index) (byteAt rd 0) v)
    else .respond (okResponse 0 0)
  else
    match (split (pixelBytes w) o v)[k]? with
    | some d => .write (base + byteOffset w index + k) d
    | none => .respond (okResponse 0 0)

/-- What the block does next, from the sampled operands, the byte counter and the read latch (R34, R73, R130, R150). -/
def plan (p : Params) (k : Nat) (rd : BitVec 32) : Shape → Action
  | .value op w v => .respond (valueResponse op w v)
  | .load w o index base len =>
    if !descOk p base len then .respond (failResponse .illegal)
    else if !inb w index len then .respond (failResponse .empty)
    else planLoad w o index base k rd
  | .store w o index value base len =>
    if !descOk p base len then .respond (failResponse .illegal)
    else if !inb w index len then .respond (failResponse .outOfBounds)
    else planStore w o index (maskw w value) base k rd

/-- What the block does next for the command it holds; a word that names no operation answers ILLEGAL (R68, R73). -/
def State.nextAction (s : State) : Action :=
  match decode s.op with
  | .error _ => .respond (failResponse .illegal)
  | .ok i => plan s.params s.k.toNat s.rd i.shape

/-- The block raises its next request or its response. -/
def State.act (s : State) : State :=
  match s.nextAction with
  | .read a => s.raiseRead a
  | .write a v => s.raiseWrite a v
  | .respond r => s.respond r

/-- An edge with `rst = 1`: the command in progress is abandoned; a request raised or outstanding may still take effect
(R231, R232; log 10). If it does, it does so at this edge and not later, and its completion pulse never comes
(DESIGN CHOICE, log 21). A completion pulse at this very edge does not count as seen: `lands` alone decides, whatever
`memRspValid` is (DESIGN CHOICE, log 23). -/
def resetEdge (lands : Bool) (s : State) : Result :=
  if (s.memReqValid || s.memOutstanding) && lands then
    match completeRequest none s with
    | .ok s' => .next s'.resetBlock
    | .error f => .fault f
  else .next s.resetBlock

/-- An edge with `rst = 0`: one handshake, or one move of the block, or waiting. While `rst` was 1 `cmd_ready` is 0, so
the edge at which it returns to 0 accepts nothing (R231, R35). -/
def blockEdge (e : Edge) (s : State) : Result :=
  if s.rst then .next s.dropReset
  else if s.rspValid then .next (if e.rspReady then s.takeResponse else s)
  else if s.memReqValid then .next (if e.memReqReady then s.acceptRequest else s)
  else if s.memOutstanding then (if e.memRspValid then ofBus (completeRequest e.memRdata s) else .next s)
  else if s.busy then .next s.act
  else
    match s.presented with
    | some c => .next (if e.cmdValid then s.accept (sample s.params c) else s)
    | none => .next s

/-- One rising edge of `clk` (R230), after the other agents' writes. `rst` comes before every handshake: at an edge with
`rst`, `rsp_valid` and `rsp_ready` all 1 the response counts as abandoned (R232), not as taken (R32) (DESIGN CHOICE,
log 22). -/
def clockEdge (e : Edge) (s : State) : Result :=
  match agentWrites e.agents s with
  | .error f => .fault f
  | .ok s' => if e.rst then resetEdge e.lands s' else blockEdge e s'

/-- No command runs and nothing is offered on any port: a command can be accepted (R35). -/
def State.idle (s : State) : Bool :=
  s.cmdReady && !s.rspValid && !s.memReqValid && !s.memOutstanding

/-- The presented command is accepted and runs, undisturbed, until its response is offered (R49, R73, D27). -/
def runCommand (c : Command) (s : State) : Result :=
  let c' := sample s.params c
  match decode c' with
  | .error _ => .next ((s.accept c').raise .illegal)
  | .ok i => exec i (s.accept c')

/-- With nothing disturbing the block: an idle block runs the presented command, or waits if there is none (R246); any
other state goes on by one edge. -/
def undisturbedStep (s : State) : Result :=
  if s.idle then
    match s.presented with
    | some c => runCommand c s
    | none => .next s
  else clockEdge Edge.undisturbed s

/-- One step: the next edge of the agenda, or, when it is empty, the undisturbed block (log 5). -/
def advance (s : State) : Result :=
  match s.agenda with
  | e :: rest => clockEdge e { s with agenda := rest }
  | [] => undisturbedStep s

end Sys2Proof.Machine
end

