-- ==== Sys2Proof/Machine/Step.lean ====
section
/-! DEFINITION. The step, and the state in which the next step runs a given control word. -/

namespace Sys2Proof.Machine

/-- One step of the machine (`advance`, Machine/Sequencer.lean). -/
def step (s : State) : Host.Outcome State Fault Refusal := advance s

/-- `s` with the block idle, nothing disturbing it, and the host presenting the one command whose control word is `w`
and whose operand fields are zero: the very next step runs it (log 4, log 15). -/
def State.withFetchWord (s : State) (nbits w : Nat) : State :=
  { s with rst := false, busy := false, rspValid := false, memReqValid := false, memOutstanding := false,
           program := [Command.ofTableWord nbits w], pos := 0, agenda := [] }

end Sys2Proof.Machine
end

