-- ==== Sys2Proof/Safety.lean ====
section
/-! DEFINITION. The terms the statements use: what a command leaves alone, runs of clock edges, the invariant of the
machine, and the forms in which a command's rule is stated. -/

namespace Sys2Proof.Machine

/-- What no meaning changes: the parameters, `rst`, `busy`, the sampled operands, the host's list, position and
responses, the agenda, and the count of free values (R20 to R24, R34). -/
structure KeepsHost (s t : State) : Prop where
  params : t.params = s.params
  rst : t.rst = s.rst
  busy : t.busy = s.busy
  op : t.op = s.op
  program : t.program = s.program
  pos : t.pos = s.pos
  taken : t.taken = s.taken
  agenda : t.agenda = s.agenda
  unspec : t.unspec = s.unspec

/-- The memory port after accesses, the last at `addr`: nothing pending, the counter advanced by their number. That a
sub-byte STORE counts 2 is the model's reading of R34 (DEDUCED, log 7), and that `mem_addr` keeps the last request's
address is the model's choice (log 20): no rule states either. -/
structure PortAfter (s t : State) (count addr : Nat) : Prop where
  counter : t.k = s.k + BitVec.ofNat 3 count
  request : t.memReqValid = false
  outstanding : t.memOutstanding = false
  address : t.memAddr = addr

/-- The illegal commands: conditions (a) to (e) of R68, on the record's numbers. -/
def IllegalCommand (p : Params) (c : Command) : Prop :=
  c.cw.toNat / 256 ≠ 0 ∨
  (c.cw.toNat % 16 = 0 ∨ 8 ≤ c.cw.toNat % 16) ∨
  c.cw.toNat / 16 % 8 = 7 ∨
  (c.cw.toNat % 16 ∈ [1, 2, 3, 6, 7] ∧ c.cw.toNat / 128 % 2 = 1) ∨
  (c.cw.toNat % 16 ∈ [4, 5] ∧ 2 ^ p.addrw < c.base + c.len)

/-- The legal control words of R69, written out. -/
def legalControlWords : List (BitVec 16) :=
  [0x0001, 0x0011, 0x0021, 0x0031, 0x0041, 0x0051, 0x0061,
   0x0002, 0x0012, 0x0022, 0x0032, 0x0042, 0x0052, 0x0062,
   0x0003, 0x0013, 0x0023, 0x0033, 0x0043, 0x0053, 0x0063] ++
  [0x0004, 0x0014, 0x0024, 0x0034, 0x0044, 0x0054, 0x0064,
   0x0084, 0x0094, 0x00A4, 0x00B4, 0x00C4, 0x00D4, 0x00E4,
   0x0005, 0x0015, 0x0025, 0x0035, 0x0045, 0x0055, 0x0065,
   0x0085, 0x0095, 0x00A5, 0x00B5, 0x00C5, 0x00D5, 0x00E5] ++
  [0x0006, 0x0016, 0x0026, 0x0036, 0x0046, 0x0056, 0x0066,
   0x0007, 0x0017, 0x0027, 0x0037, 0x0047, 0x0057, 0x0067]

/-- A value command: its word decodes to it whatever the ignored fields hold, and running it offers `(OK, r, n)` and
changes nothing else, memory and trace included. -/
def AnswersValue (s : State) (cw : BitVec 16) (i : Instr) (v r : BitVec 32) (n : BitVec 3) : Prop :=
  (∀ index base len, decode ⟨cw, index, v, base, len⟩ = .ok i) ∧ exec i s = .next (s.respond ⟨.ok, r, n⟩)

/-- A LOAD command at `w` bits a pixel: its word decodes to it whatever `value` holds; a descriptor beyond the address
space answers ILLEGAL, a pixel out of bounds EMPTY, each with no other effect; else it answers `(OK, r, 0)` after reading
`addrs` in order. Besides the response, the byte counter, the read latch and the request registers of the memory port,
nothing changes. Not the rules' but the model's: what the byte counter counts (log 7), and what `mem_we`, `mem_addr` and
`mem_wdata` carry after the last completion pulse (log 20). -/
def Loads (s : State) (cw : BitVec 16) (i : Instr) (w index base len : Nat) (addrs : List Nat) (r : BitVec 32) : Prop :=
  (∀ v, decode ⟨cw, index, v, base, len⟩ = .ok i) ∧
  (2 ^ s.params.addrw < base + len → exec i s = .next (s.respond ⟨.illegal, 0, 0⟩)) ∧
  (base + len ≤ 2 ^ s.params.addrw → len * 8 < (index + 1) * w → exec i s = .next (s.respond ⟨.empty, 0, 0⟩)) ∧
  (base + len ≤ 2 ^ s.params.addrw → (index + 1) * w ≤ len * 8 →
    ∃ t, exec i s = .next t ∧ t.rspValid = true ∧ t.response = ⟨.ok, r, 0⟩ ∧ t.mem = s.mem ∧
      t.trace = s.trace ++ addrs.map .read ∧ KeepsHost s t ∧ PortAfter s t addrs.length (addrs.getLast?.getD 0) ∧
      t.memWe = false ∧ t.memWdata = s.memWdata)

/-- A STORE command at `w` bits a pixel: its word decodes to it; a descriptor beyond the address space answers ILLEGAL, a
pixel out of bounds OUT_OF_BOUNDS, each with no other effect; else it answers `(OK, 0, 0)` after the accesses listed, the
bytes of `cells` are in memory and every other byte reads as before. Besides these, the byte counter, the read latch (of
a sub-byte STORE) and the request registers of the memory port, nothing changes. Not the rules' but the model's: what the
byte counter counts (log 7), and what `mem_we`, `mem_addr` and `mem_wdata` carry after the last completion pulse
(log 20). -/
def Stores (s : State) (cw : BitVec 16) (i : Instr) (w index base len : Nat) (v : BitVec 32) (accesses : List Access)
    (cells : List Host.Cell) : Prop :=
  decode ⟨cw, index, v, base, len⟩ = .ok i ∧
  (2 ^ s.params.addrw < base + len → exec i s = .next (s.respond ⟨.illegal, 0, 0⟩)) ∧
  (base + len ≤ 2 ^ s.params.addrw → len * 8 < (index + 1) * w →
    exec i s = .next (s.respond ⟨.outOfBounds, 0, 0⟩)) ∧
  (base + len ≤ 2 ^ s.params.addrw → (index + 1) * w ≤ len * 8 →
    ∃ t, exec i s = .next t ∧ t.rspValid = true ∧ t.response = ⟨.ok, 0, 0⟩ ∧
      t.trace = s.trace ++ accesses ∧ (∀ c ∈ cells, t.mem.read c.1 = c.2) ∧
      (∀ a, a ∉ cells.map Prod.fst → t.mem.read a = s.mem.read a) ∧ (s.mem.wf = true → t.mem.wf = true) ∧
      KeepsHost s t ∧ PortAfter s t accesses.length ((cells.map Prod.fst).getLast?.getD 0) ∧ t.memWe = true ∧
      t.memWdata = (cells.map Prod.snd).getLast?.getD 0 ∧ (w % 8 = 0 → t.rd = s.rd))

/-- The addresses of an instruction's pixel; a value command has none. -/
def pixelOf : Instr → List Nat := fun i =>
  match i.shape with
  | .value _ _ _ => []
  | .load w _ index base _ => pixelAddrs w index base
  | .store w _ index _ base _ => pixelAddrs w index base

/-- The LOAD instruction of a width and an order. -/
def loadInstr (w : Width) (o : DataOrder) (index base len : Nat) : Instr := Instr.ofShape (.load w o index base len)

/-- The STORE instruction of a width and an order. -/
def storeInstr (w : Width) (o : DataOrder) (index : Nat) (v : BitVec 32) (base len : Nat) : Instr :=
  Instr.ofShape (.store w o index v base len)

/-- A run of clock edges. -/
def runEdges : List Edge → State → Result
  | [], s => .next s
  | e :: es, s =>
    match clockEdge e s with
    | .next t => runEdges es t
    | .fault f => .fault f
    | .refused r => .refused r

/-- An edge while a command runs: no reset, the host does not take the response yet, the memory keeps its duty (R46) but
answers when it likes, and other agents write only outside the addresses given. -/
def Edge.avoids (addrs : List Nat) (e : Edge) : Bool :=
  e.agents.all (fun c => !addrs.contains c.1) && !e.rst && !e.rspReady && e.memRdata.isNone

/-- An edge while a command runs at which no other agent writes. -/
def Edge.quiet (e : Edge) : Bool := e.agents.isEmpty && e.avoids []

/-- Memory after the writes of the other agents of a run of edges, in order, and of nobody else (R52). -/
def outsideWrites (es : List Edge) (m : Memory) : Memory :=
  (es.flatMap Edge.agents).foldl (fun m c => m.write c.1 c.2) m

/-- An edge at which the host presents its command and the memory is ready and completes. -/
def Edge.ready (e : Edge) : Bool := e.cmdValid && e.memReqReady && e.memRspValid

/-- The access on the memory port's registers. -/
def State.pendingAccess (s : State) : Action :=
  if s.memWe then .write s.memAddr s.memWdata else .read s.memAddr

/-- The address of an access. -/
def Access.addr : Access → Nat
  | .read a => a
  | .write a _ => a

/-- The invariant of the machine. Three clauses hold more than the rules they name: that nothing is outstanding in an
idle block rests on log 3 at reset and log 21 after a reset in mid-command, that the request registers keep an accepted
request and that `mem_we` is 0 in every idle block on log 20. -/
structure State.Inv (s : State) : Prop where
  /-- each parameter is from 1 to 64 (R5) -/
  params : s.params.valid = true
  /-- memory is in canonical form -/
  memWf : s.mem.wf = true
  /-- every listed byte is in the address space (R30) -/
  memSpace : ∀ c ∈ s.mem, addrExists s.params c.1 = true
  /-- the sampled operands fit their ports (R31) -/
  opFits : s.op.fits s.params = true
  /-- no command runs during reset (R231) -/
  rstIdle : s.rst = true → s.busy = false
  /-- an idle block offers nothing (R36, R210), and no request is outstanding (logs 3 and 21) -/
  idleQuiet : s.busy = false → s.rspValid = false ∧ s.memReqValid = false ∧ s.memOutstanding = false
  /-- an idle block keeps no direction of an earlier request: `mem_we` is 0, as after reset (R20, R36, R147; log 20) -/
  idleRead : s.busy = false → s.memWe = false
  /-- the response is offered after the last access completed (R49) -/
  responseLast : s.rspValid = true → s.memReqValid = false ∧ s.memOutstanding = false
  /-- at most one request is outstanding (R33) -/
  oneRequest : s.memReqValid = true → s.memOutstanding = false
  /-- the byte counter of a running command counts 0 to 4 (R34) -/
  counter : s.busy = true → s.k.toNat ≤ 4
  /-- the request on the port is the one the sampled operands call for (R34, R130, R150); while it is outstanding the
  registers still hold it (DESIGN CHOICE, log 20) -/
  pending : s.memReqValid = true ∨ s.memOutstanding = true → s.nextAction = s.pendingAccess
  /-- so is the response (R32) -/
  offered : s.rspValid = true → s.nextAction = .respond s.response
  /-- no access has left the address space (R47) -/
  traceSpace : ∀ x ∈ s.trace, addrExists s.params x.addr = true

end Sys2Proof.Machine
end

