-- ==== Sys2Proof/Certificates/Slice0/Obligations.lean ====
section
/-! DEFINITION. The statements for the provers, from the numbered rules of spec/. -/

open Sys2Proof Sys2Proof.Machine

/-- R69: the legal control words, and no others. -/
def Obligations.DecoderAcceptsExactlyTheLegalWords : Prop :=
  (∀ c : Command, (∃ i, decode c = .ok i) ↔ c.cw ∈ legalControlWords) ∧
  legalControlWords.length = 63 ∧ legalControlWords.Nodup ∧
  (∀ cw : BitVec 16, cw ∈ legalControlWords ↔
    ∃ op wcode ord : Nat, cw.toNat = op + 16 * wcode + 128 * ord ∧ 1 ≤ op ∧ op ≤ 7 ∧ wcode ≤ 6 ∧ ord ≤ 1 ∧
      (op ≠ 4 → op ≠ 5 → ord = 0)) ∧
  (∀ (c : Command) (i : Instr), decode c = .ok i → (encode i).cw = c.cw)

/-- Decode and encode agree for all 63 instructions, with every operand at every value. -/
def Obligations.DecodeAndEncodeAgree : Prop :=
  ∀ i : Instr, decode (encode i) = .ok i ∧ (∀ p : Params, i.wellFormed p = (encode i).fits p) ∧
    ∀ c : Command, decode c = .ok i ↔ c.cw = (encode i).cw ∧ i.shape.readsFrom c = true

/-- R69 and R71: sample words, a sanity statement. -/
def Obligations.SampleWordsDecodeToTheirCommands : Prop :=
  decode ⟨0x0025, 3, 0xF, 0x1000, 2⟩ = .ok (.store4Lm 3 0xF 0x1000 2) ∧
  decode ⟨0x0021, 7, 0xFF, 8, 9⟩ = .ok (.new4 0xFF) ∧ decode ⟨0x0052, 0, 0xAB123456, 0, 0⟩ = .ok (.fromU32w24 0xAB123456) ∧
  decode ⟨0x0033, 0, 0xA5, 0, 0⟩ = .ok (.intoInner8 0xA5) ∧ decode ⟨0x00D4, 0, 0, 0, 3⟩ = .ok (.load24Bl 0 0 3) ∧
  decode ⟨0x0066, 0, 1, 0, 0⟩ = .ok (.toLeBytes32 1) ∧ decode ⟨0x0047, 0, 0x1234, 0, 0⟩ = .ok (.toBeBytes16 0x1234) ∧
  decode ⟨0x0000, 0, 0, 0, 0⟩ = .error .noOperation ∧ decode ⟨0x0071, 0, 0, 0, 0⟩ = .error .noWidth ∧
  decode ⟨0x0081, 0, 0, 0, 0⟩ = .error .orderOnValueOperation ∧ decode ⟨0x0104, 0, 0, 0x1000, 8⟩ = .error .reservedBits

/-- R73: the decoded operation's own rule runs. The agenda is the model's choice (log 5), the atomic command is allowed by D27. -/
def Obligations.StepRunsTheDecodedCommand : Prop :=
  (∀ (s : State) (c : Command) (i : Instr), s.agenda = [] → s.idle = true → s.presented = some c →
      decode (sample s.params c) = .ok i → step s = exec i (s.accept (sample s.params c))) ∧
  (∀ (s : State) (c : Command) (e : IllegalWord), s.agenda = [] → s.idle = true → s.presented = some c →
      decode (sample s.params c) = .error e →
      step s = .next ((s.accept (sample s.params c)).respond ⟨.illegal, 0, 0⟩)) ∧
  (∀ (s : State) (e : Edge) (rest : List Edge), s.agenda = e :: rest →
      step s = clockEdge e (State.mk s.params s.rst s.busy s.op s.k s.rd s.rspValid s.rspStatus s.rspValue s.rspNbytes
        s.memReqValid s.memOutstanding s.memWe s.memAddr s.memWdata s.mem s.program s.pos s.taken rest s.trace
        s.unspec)) ∧
  (∀ (s : State) (nbits w : Nat) (i : Instr), decodeTableWord nbits w = some i →
      step (s.withFetchWord nbits w) = exec i ((s.withFetchWord nbits w).accept (Command.ofTableWord nbits w)))

/-- R68: illegal exactly when (a) to (e); nothing else happens. -/
def Obligations.IllegalCommandsAnswerIllegal : Prop :=
  ∀ (s : State) (c : Command), s.agenda = [] → s.idle = true → s.presented = some c → c.fits s.params = true →
    ∃ t, step s = .next t ∧ t.rspValid = true ∧ (t.rspStatus = .illegal ↔ IllegalCommand s.params c) ∧
      (IllegalCommand s.params c → t = (s.accept c).respond ⟨.illegal, 0, 0⟩ ∧ t.rspErr = true)

/-- R82 to R88: encoding, result, no other effect. -/
def Obligations.NewKeepsTheLowBits : Prop :=
  ∀ (s : State) (v : BitVec 32),
    AnswersValue s 0x0001 (.new1 v) v ((v.extractLsb' 0 1).setWidth 32) 0 ∧
    AnswersValue s 0x0011 (.new2 v) v ((v.extractLsb' 0 2).setWidth 32) 0 ∧
    AnswersValue s 0x0021 (.new4 v) v ((v.extractLsb' 0 4).setWidth 32) 0 ∧
    AnswersValue s 0x0031 (.new8 v) v ((v.extractLsb' 0 8).setWidth 32) 0 ∧
    AnswersValue s 0x0041 (.new16 v) v ((v.extractLsb' 0 16).setWidth 32) 0 ∧
    AnswersValue s 0x0051 (.new24 v) v ((v.extractLsb' 0 24).setWidth 32) 0 ∧
    AnswersValue s 0x0061 (.new32 v) v ((v.extractLsb' 0 32).setWidth 32) 0

/-- R90 to R96: encoding, result, no other effect. -/
def Obligations.FromU32KeepsTheLowBits : Prop :=
  ∀ (s : State) (v : BitVec 32),
    AnswersValue s 0x0002 (.fromU32w1 v) v ((v.extractLsb' 0 1).setWidth 32) 0 ∧
    AnswersValue s 0x0012 (.fromU32w2 v) v ((v.extractLsb' 0 2).setWidth 32) 0 ∧
    AnswersValue s 0x0022 (.fromU32w4 v) v ((v.extractLsb' 0 4).setWidth 32) 0 ∧
    AnswersValue s 0x0032 (.fromU32w8 v) v ((v.extractLsb' 0 8).setWidth 32) 0 ∧
    AnswersValue s 0x0042 (.fromU32w16 v) v ((v.extractLsb' 0 16).setWidth 32) 0 ∧
    AnswersValue s 0x0052 (.fromU32w24 v) v ((v.extractLsb' 0 24).setWidth 32) 0 ∧
    AnswersValue s 0x0062 (.fromU32w32 v) v ((v.extractLsb' 0 32).setWidth 32) 0

/-- R98 to R104: encoding, result, no other effect. -/
def Obligations.IntoInnerKeepsTheLowBits : Prop :=
  ∀ (s : State) (v : BitVec 32),
    AnswersValue s 0x0003 (.intoInner1 v) v ((v.extractLsb' 0 1).setWidth 32) 0 ∧
    AnswersValue s 0x0013 (.intoInner2 v) v ((v.extractLsb' 0 2).setWidth 32) 0 ∧
    AnswersValue s 0x0023 (.intoInner4 v) v ((v.extractLsb' 0 4).setWidth 32) 0 ∧
    AnswersValue s 0x0033 (.intoInner8 v) v ((v.extractLsb' 0 8).setWidth 32) 0 ∧
    AnswersValue s 0x0043 (.intoInner16 v) v ((v.extractLsb' 0 16).setWidth 32) 0 ∧
    AnswersValue s 0x0053 (.intoInner24 v) v ((v.extractLsb' 0 24).setWidth 32) 0 ∧
    AnswersValue s 0x0063 (.intoInner32 v) v ((v.extractLsb' 0 32).setWidth 32) 0

/-- R179 to R185: encoding, result, no other effect. -/
def Obligations.ToLeBytesPacksTheValue : Prop :=
  ∀ (s : State) (v : BitVec 32),
    AnswersValue s 0x0006 (.toLeBytes1 v) v ((v.extractLsb' 0 1).setWidth 32) 1 ∧
    AnswersValue s 0x0016 (.toLeBytes2 v) v ((v.extractLsb' 0 2).setWidth 32) 1 ∧
    AnswersValue s 0x0026 (.toLeBytes4 v) v ((v.extractLsb' 0 4).setWidth 32) 1 ∧
    AnswersValue s 0x0036 (.toLeBytes8 v) v ((v.extractLsb' 0 8).setWidth 32) 1 ∧
    AnswersValue s 0x0046 (.toLeBytes16 v) v ((v.extractLsb' 8 8 ++ v.extractLsb' 0 8).setWidth 32) 2 ∧
    AnswersValue s 0x0056 (.toLeBytes24 v) v ((v.extractLsb' 16 8 ++ v.extractLsb' 8 8 ++ v.extractLsb' 0 8).setWidth 32) 3 ∧
    AnswersValue s 0x0066 (.toLeBytes32 v) v (v.extractLsb' 24 8 ++ v.extractLsb' 16 8 ++ v.extractLsb' 8 8 ++ v.extractLsb' 0 8) 4

/-- R187 to R193: encoding, result, no other effect. -/
def Obligations.ToBeBytesReversesTheBytes : Prop :=
  ∀ (s : State) (v : BitVec 32),
    AnswersValue s 0x0007 (.toBeBytes1 v) v ((v.extractLsb' 0 1).setWidth 32) 1 ∧
    AnswersValue s 0x0017 (.toBeBytes2 v) v ((v.extractLsb' 0 2).setWidth 32) 1 ∧
    AnswersValue s 0x0027 (.toBeBytes4 v) v ((v.extractLsb' 0 4).setWidth 32) 1 ∧
    AnswersValue s 0x0037 (.toBeBytes8 v) v ((v.extractLsb' 0 8).setWidth 32) 1 ∧
    AnswersValue s 0x0047 (.toBeBytes16 v) v ((v.extractLsb' 0 8 ++ v.extractLsb' 8 8).setWidth 32) 2 ∧
    AnswersValue s 0x0057 (.toBeBytes24 v) v ((v.extractLsb' 0 8 ++ v.extractLsb' 8 8 ++ v.extractLsb' 16 8).setWidth 32) 3 ∧
    AnswersValue s 0x0067 (.toBeBytes32 v) v (v.extractLsb' 0 8 ++ v.extractLsb' 8 8 ++ v.extractLsb' 16 8 ++ v.extractLsb' 24 8) 4

/-- R80: the masking function. -/
def Obligations.MaskingIsReductionModuloTheWidth : Prop :=
  ∀ (w : Width) (v : BitVec 32), (mask w).toNat = 2 ^ bits w - 1 ∧ maskw w v = v &&& mask w ∧
    (maskw w v).toNat = v.toNat % 2 ^ bits w ∧ (maskw w v).toNat < 2 ^ bits w ∧
    (∀ i, (maskw w v).getLsbD i = (decide (i < bits w) && v.getLsbD i)) ∧ maskw w (maskw w v) = maskw w v

/-- R105: the three operations agree as functions of the port. -/
def Obligations.MaskedValueOperationsAgree : Prop :=
  ∀ (w w' : Width) (v : BitVec 32) (s : State),
    exec (Instr.ofShape (.value .new w v)) s = exec (Instr.ofShape (.value .fromU32 w v)) s ∧
    exec (Instr.ofShape (.value .fromU32 w v)) s = exec (Instr.ofShape (.value .intoInner w v)) s ∧
    intoInnerValue w (newValue w v) = v &&& mask w ∧ newValue w (intoInnerValue w (maskw w v)) = maskw w v ∧
    fromU32Value w' (intoInnerValue w v) = v &&& mask w &&& mask w'

/-- R194 (a) to (d). -/
def Obligations.ByteSequenceRelations : Prop :=
  ∀ (w : Width) (v : BitVec 32),
    bytesBe (seqLen w) (maskw w v) = (bytesLe (seqLen w) (maskw w v)).reverse ∧
    (bits w ≤ 8 → ∀ s, exec (Instr.ofShape (.value .toBeBytes w v)) s = exec (Instr.ofShape (.value .toLeBytes w v)) s) ∧
    (8 ≤ bits w → ∀ (o : DataOrder) (s t : State) (index base len : Nat), base + len ≤ 2 ^ s.params.addrw →
      (index + 1) * bits w ≤ len * 8 → exec (storeInstr w o index v base len) s = .next t →
      (List.range (seqLen w)).map (fun j => t.mem.read (base + index * seqLen w + j)) =
        match o with
        | .littleEndianMsb0 => bytesLe (seqLen w) (maskw w v)
        | .bigEndianLsb0 => bytesBe (seqLen w) (maskw w v)) ∧
    (∀ s, exec (Instr.ofShape (.value .toLeBytes w v)) s =
      .next (s.respond ⟨.ok, maskw w v, BitVec.ofNat 3 (seqLen w)⟩)) ∧
    (∀ s, exec (Instr.ofShape (.value .intoInner w v)) s = .next (s.respond ⟨.ok, maskw w v, 0⟩))

/-- R111, R112, R117, R121: the bounds check and the forms it equals. -/
def Obligations.BoundsCheckNeedsNoProduct : Prop :=
  ∀ (w : Width) (index len : Nat),
    (inb w index len = true ↔ (index + 1) * bits w ≤ len * 8) ∧
    (w.isSubByte = false → (inb w index len = true ↔ index < len / pixelBytes w)) ∧
    (w.isSubByte = true → (inb w index len = true ↔ index / perByte w < len)) ∧
    (inb w index len = true ↔ index < len * 8 / bits w)

/-- R120: the exhaustive table. -/
def Obligations.ShiftAndFieldMaskTable : Prop :=
  ((List.range 8).map (fun i => (shift .w1 .littleEndianMsb0 i, fieldMask .w1 (shift .w1 .littleEndianMsb0 i),
      shift .w1 .bigEndianLsb0 i, fieldMask .w1 (shift .w1 .bigEndianLsb0 i))) =
    [(7, 0x80, 0, 0x01), (6, 0x40, 1, 0x02), (5, 0x20, 2, 0x04), (4, 0x10, 3, 0x08),
     (3, 0x08, 4, 0x10), (2, 0x04, 5, 0x20), (1, 0x02, 6, 0x40), (0, 0x01, 7, 0x80)]) ∧
  ((List.range 4).map (fun i => (shift .w2 .littleEndianMsb0 i, fieldMask .w2 (shift .w2 .littleEndianMsb0 i),
      shift .w2 .bigEndianLsb0 i, fieldMask .w2 (shift .w2 .bigEndianLsb0 i))) =
    [(6, 0xC0, 0, 0x03), (4, 0x30, 2, 0x0C), (2, 0x0C, 4, 0x30), (0, 0x03, 6, 0xC0)]) ∧
  ((List.range 2).map (fun i => (shift .w4 .littleEndianMsb0 i, fieldMask .w4 (shift .w4 .littleEndianMsb0 i),
      shift .w4 .bigEndianLsb0 i, fieldMask .w4 (shift .w4 .bigEndianLsb0 i))) =
    [(4, 0xF0, 0, 0x0F), (0, 0x0F, 4, 0xF0)]) ∧
  (∀ (w : Width) (o : DataOrder) (index : Nat), w.isSubByte = true →
    slot w index < perByte w ∧ shift w o index = shift w o (slot w index))

/-- R118: the addresses put on the memory port. -/
def Obligations.PixelAddressesStayInTheBuffer : Prop :=
  ∀ (p : Params) (w : Width) (index base len : Nat),
    (w.isSubByte = false →
      pixelAddrs w index base = (List.range (pixelBytes w)).map (fun j => base + (index * (bits w / 8) + j))) ∧
    (w.isSubByte = true → pixelAddrs w index base = [base + index / (8 / bits w)]) ∧
    (descOk p base len = true → inb w index len = true →
      ∀ a ∈ pixelAddrs w index base, base ≤ a ∧ a < base + len ∧ a < 2 ^ p.addrw) ∧
    (∀ (o : DataOrder) (v : BitVec 32) (s : State) (i : Instr), decode s.op = .ok i → s.params = p →
      i = loadInstr w o index base len ∨ i = storeInstr w o index v base len →
      ∀ a, (s.nextAction = .read a ∨ ∃ b, s.nextAction = .write a b) →
        a ∈ pixelAddrs w index base ∧ base ≤ a ∧ a < base + len ∧ a < 2 ^ p.addrw)

/-- R151: split and its relation to assemble (R131). -/
def Obligations.SplitAndAssembleAreInverse : Prop :=
  ∀ (n : Nat), 1 ≤ n → n ≤ 4 →
    (∀ (v : BitVec 32) (k : Nat), k < n →
      (split n .littleEndianMsb0 v)[k]? = some (v.extractLsb' (8 * k) 8) ∧
      (split n .bigEndianLsb0 v)[k]? = some (v.extractLsb' (8 * (n - 1 - k)) 8)) ∧
    (∀ (o : DataOrder) (v : BitVec 32), (split n o v).length = n ∧
      (assemble o (split n o v)).toNat = v.toNat % 2 ^ (8 * n)) ∧
    (∀ (o : DataOrder) (b : List Byte), b.length = n → split n o (assemble o b) = b) ∧
    (n = 1 → ∀ (o : DataOrder) (v : BitVec 32), split n o v = [v.setWidth 8])

/-- R152: the insertion function. -/
def Obligations.InsertChangesOnlyTheField : Prop :=
  ∀ (w : Width) (o : DataOrder) (index : Nat) (old : Byte) (v : BitVec 32), w.isSubByte = true →
    v.toNat < 2 ^ bits w →
    shift w o index + bits w ≤ 8 ∧
    insertField w (shift w o index) old v =
      (old &&& ~~~(BitVec.ofNat 8 (2 ^ bits w - 1) <<< shift w o index)) ||| (v.setWidth 8 <<< shift w o index) ∧
    (∀ i, i < 8 → (insertField w (shift w o index) old v).getLsbD i =
      if shift w o index ≤ i ∧ i < shift w o index + bits w then v.getLsbD (i - shift w o index) else old.getLsbD i) ∧
    extractField w (shift w o index) (insertField w (shift w o index) old v) = v

/-- R133 to R135, R140 to R142. The byte counter is log 7's reading, the request registers afterwards are log 20's choice: the
model's own, not the rules'. -/
def Obligations.SubByteLoadsExtractTheField : Prop :=
  ∀ (s : State) (index base len : Nat),
    Loads s 0x0004 (.load1Lm index base len) 1 index base len [base + index / 8]
      (((s.mem.read (base + index / 8) >>> (7 - index % 8)) &&& 0x1#8).setWidth 32) ∧
    Loads s 0x0014 (.load2Lm index base len) 2 index base len [base + index / 4]
      (((s.mem.read (base + index / 4) >>> (6 - 2 * (index % 4))) &&& 0x3#8).setWidth 32) ∧
    Loads s 0x0024 (.load4Lm index base len) 4 index base len [base + index / 2]
      (((s.mem.read (base + index / 2) >>> (4 - 4 * (index % 2))) &&& 0xF#8).setWidth 32) ∧
    Loads s 0x0084 (.load1Bl index base len) 1 index base len [base + index / 8]
      (((s.mem.read (base + index / 8) >>> (index % 8)) &&& 0x1#8).setWidth 32) ∧
    Loads s 0x0094 (.load2Bl index base len) 2 index base len [base + index / 4]
      (((s.mem.read (base + index / 4) >>> (2 * (index % 4))) &&& 0x3#8).setWidth 32) ∧
    Loads s 0x00A4 (.load4Bl index base len) 4 index base len [base + index / 2]
      (((s.mem.read (base + index / 2) >>> (4 * (index % 2))) &&& 0xF#8).setWidth 32) ∧
    ((index + 1) * 1 ≤ len * 8 ↔ index / 8 < len) ∧
    ((index + 1) * 2 ≤ len * 8 ↔ index / 4 < len) ∧
    ((index + 1) * 4 ≤ len * 8 ↔ index / 2 < len)

/-- R136 to R139. The byte counter is log 7's reading, the request registers afterwards are log 20's choice: the
model's own, not the rules'. -/
def Obligations.LittleEndianLoadsAssembleBytes : Prop :=
  ∀ (s : State) (index base len : Nat),
    Loads s 0x0034 (.load8Lm index base len) 8 index base len
      [base + index]
      ((s.mem.read (base + index)).setWidth 32) ∧
    Loads s 0x0044 (.load16Lm index base len) 16 index base len
      [base + 2 * index, base + 2 * index + 1]
      ((s.mem.read (base + 2 * index + 1) ++ s.mem.read (base + 2 * index)).setWidth 32) ∧
    Loads s 0x0054 (.load24Lm index base len) 24 index base len
      [base + 3 * index, base + 3 * index + 1, base + 3 * index + 2]
      (0x00#8 ++ s.mem.read (base + 3 * index + 2) ++ s.mem.read (base + 3 * index + 1) ++ s.mem.read (base + 3 * index)) ∧
    Loads s 0x0064 (.load32Lm index base len) 32 index base len
      [base + 4 * index, base + 4 * index + 1, base + 4 * index + 2, base + 4 * index + 3]
      (s.mem.read (base + 4 * index + 3) ++ s.mem.read (base + 4 * index + 2) ++ s.mem.read (base + 4 * index + 1) ++ s.mem.read (base + 4 * index)) ∧
    ((index + 1) * 8 ≤ len * 8 ↔ index < len / 1) ∧
    ((index + 1) * 16 ≤ len * 8 ↔ index < len / 2) ∧
    ((index + 1) * 24 ≤ len * 8 ↔ index < len / 3) ∧
    ((index + 1) * 32 ≤ len * 8 ↔ index < len / 4)

/-- R143 to R146. The byte counter is log 7's reading, the request registers afterwards are log 20's choice: the
model's own, not the rules'. -/
def Obligations.BigEndianLoadsAssembleBytes : Prop :=
  ∀ (s : State) (index base len : Nat),
    Loads s 0x00B4 (.load8Bl index base len) 8 index base len
      [base + index]
      ((s.mem.read (base + index)).setWidth 32) ∧
    Loads s 0x00C4 (.load16Bl index base len) 16 index base len
      [base + 2 * index, base + 2 * index + 1]
      ((s.mem.read (base + 2 * index) ++ s.mem.read (base + 2 * index + 1)).setWidth 32) ∧
    Loads s 0x00D4 (.load24Bl index base len) 24 index base len
      [base + 3 * index, base + 3 * index + 1, base + 3 * index + 2]
      (0x00#8 ++ s.mem.read (base + 3 * index) ++ s.mem.read (base + 3 * index + 1) ++ s.mem.read (base + 3 * index + 2)) ∧
    Loads s 0x00E4 (.load32Bl index base len) 32 index base len
      [base + 4 * index, base + 4 * index + 1, base + 4 * index + 2, base + 4 * index + 3]
      (s.mem.read (base + 4 * index) ++ s.mem.read (base + 4 * index + 1) ++ s.mem.read (base + 4 * index + 2) ++ s.mem.read (base + 4 * index + 3)) ∧
    ((index + 1) * 8 ≤ len * 8 ↔ index < len / 1) ∧
    ((index + 1) * 16 ≤ len * 8 ↔ index < len / 2) ∧
    ((index + 1) * 24 ≤ len * 8 ↔ index < len / 3) ∧
    ((index + 1) * 32 ≤ len * 8 ↔ index < len / 4)

/-- R153 to R155, R160 to R162. That the byte counter goes up by 2 is log 7's reading of R34 (DEDUCED), and the request
registers afterwards are log 20's choice: the model's own, not the rules'. -/
def Obligations.SubByteStoresMergeTheField : Prop :=
  ∀ (s : State) (index base len : Nat) (v : BitVec 32),
    Stores s 0x0005 (.store1Lm index v base len) 1 index base len v
      [.read (base + index / 8), .write (base + index / 8) ((s.mem.read (base + index / 8) &&& ~~~(0x1#8 <<< (7 - index % 8))) ||| ((v.extractLsb' 0 1).setWidth 8 <<< (7 - index % 8)))]
      [(base + index / 8, (s.mem.read (base + index / 8) &&& ~~~(0x1#8 <<< (7 - index % 8))) ||| ((v.extractLsb' 0 1).setWidth 8 <<< (7 - index % 8)))] ∧
    Stores s 0x0015 (.store2Lm index v base len) 2 index base len v
      [.read (base + index / 4), .write (base + index / 4) ((s.mem.read (base + index / 4) &&& ~~~(0x3#8 <<< (6 - 2 * (index % 4)))) ||| ((v.extractLsb' 0 2).setWidth 8 <<< (6 - 2 * (index % 4))))]
      [(base + index / 4, (s.mem.read (base + index / 4) &&& ~~~(0x3#8 <<< (6 - 2 * (index % 4)))) ||| ((v.extractLsb' 0 2).setWidth 8 <<< (6 - 2 * (index % 4))))] ∧
    Stores s 0x0025 (.store4Lm index v base len) 4 index base len v
      [.read (base + index / 2), .write (base + index / 2) ((s.mem.read (base + index / 2) &&& ~~~(0xF#8 <<< (4 - 4 * (index % 2)))) ||| ((v.extractLsb' 0 4).setWidth 8 <<< (4 - 4 * (index % 2))))]
      [(base + index / 2, (s.mem.read (base + index / 2) &&& ~~~(0xF#8 <<< (4 - 4 * (index % 2)))) ||| ((v.extractLsb' 0 4).setWidth 8 <<< (4 - 4 * (index % 2))))] ∧
    Stores s 0x0085 (.store1Bl index v base len) 1 index base len v
      [.read (base + index / 8), .write (base + index / 8) ((s.mem.read (base + index / 8) &&& ~~~(0x1#8 <<< (index % 8))) ||| ((v.extractLsb' 0 1).setWidth 8 <<< (index % 8)))]
      [(base + index / 8, (s.mem.read (base + index / 8) &&& ~~~(0x1#8 <<< (index % 8))) ||| ((v.extractLsb' 0 1).setWidth 8 <<< (index % 8)))] ∧
    Stores s 0x0095 (.store2Bl index v base len) 2 index base len v
      [.read (base + index / 4), .write (base + index / 4) ((s.mem.read (base + index / 4) &&& ~~~(0x3#8 <<< (2 * (index % 4)))) ||| ((v.extractLsb' 0 2).setWidth 8 <<< (2 * (index % 4))))]
      [(base + index / 4, (s.mem.read (base + index / 4) &&& ~~~(0x3#8 <<< (2 * (index % 4)))) ||| ((v.extractLsb' 0 2).setWidth 8 <<< (2 * (index % 4))))] ∧
    Stores s 0x00A5 (.store4Bl index v base len) 4 index base len v
      [.read (base + index / 2), .write (base + index / 2) ((s.mem.read (base + index / 2) &&& ~~~(0xF#8 <<< (4 * (index % 2)))) ||| ((v.extractLsb' 0 4).setWidth 8 <<< (4 * (index % 2))))]
      [(base + index / 2, (s.mem.read (base + index / 2) &&& ~~~(0xF#8 <<< (4 * (index % 2)))) ||| ((v.extractLsb' 0 4).setWidth 8 <<< (4 * (index % 2))))] ∧
    ((index + 1) * 1 ≤ len * 8 ↔ index / 8 < len) ∧
    ((index + 1) * 2 ≤ len * 8 ↔ index / 4 < len) ∧
    ((index + 1) * 4 ≤ len * 8 ↔ index / 2 < len)

/-- R156 to R159. The byte counter is log 7's reading, the request registers afterwards are log 20's choice: the
model's own, not the rules'. -/
def Obligations.LittleEndianStoresSplitBytes : Prop :=
  ∀ (s : State) (index base len : Nat) (v : BitVec 32),
    Stores s 0x0035 (.store8Lm index v base len) 8 index base len v
      [.write (base + index) (v.extractLsb' 0 8)]
      [(base + index, v.extractLsb' 0 8)] ∧
    Stores s 0x0045 (.store16Lm index v base len) 16 index base len v
      [.write (base + 2 * index) (v.extractLsb' 0 8), .write (base + 2 * index + 1) (v.extractLsb' 8 8)]
      [(base + 2 * index, v.extractLsb' 0 8), (base + 2 * index + 1, v.extractLsb' 8 8)] ∧
    Stores s 0x0055 (.store24Lm index v base len) 24 index base len v
      [.write (base + 3 * index) (v.extractLsb' 0 8), .write (base + 3 * index + 1) (v.extractLsb' 8 8), .write (base + 3 * index + 2) (v.extractLsb' 16 8)]
      [(base + 3 * index, v.extractLsb' 0 8), (base + 3 * index + 1, v.extractLsb' 8 8), (base + 3 * index + 2, v.extractLsb' 16 8)] ∧
    Stores s 0x0065 (.store32Lm index v base len) 32 index base len v
      [.write (base + 4 * index) (v.extractLsb' 0 8), .write (base + 4 * index + 1) (v.extractLsb' 8 8), .write (base + 4 * index + 2) (v.extractLsb' 16 8), .write (base + 4 * index + 3) (v.extractLsb' 24 8)]
      [(base + 4 * index, v.extractLsb' 0 8), (base + 4 * index + 1, v.extractLsb' 8 8), (base + 4 * index + 2, v.extractLsb' 16 8), (base + 4 * index + 3, v.extractLsb' 24 8)] ∧
    ((index + 1) * 8 ≤ len * 8 ↔ index < len / 1) ∧
    ((index + 1) * 16 ≤ len * 8 ↔ index < len / 2) ∧
    ((index + 1) * 24 ≤ len * 8 ↔ index < len / 3) ∧
    ((index + 1) * 32 ≤ len * 8 ↔ index < len / 4)

/-- R163 to R166. The byte counter is log 7's reading, the request registers afterwards are log 20's choice: the
model's own, not the rules'. -/
def Obligations.BigEndianStoresSplitBytes : Prop :=
  ∀ (s : State) (index base len : Nat) (v : BitVec 32),
    Stores s 0x00B5 (.store8Bl index v base len) 8 index base len v
      [.write (base + index) (v.extractLsb' 0 8)]
      [(base + index, v.extractLsb' 0 8)] ∧
    Stores s 0x00C5 (.store16Bl index v base len) 16 index base len v
      [.write (base + 2 * index) (v.extractLsb' 8 8), .write (base + 2 * index + 1) (v.extractLsb' 0 8)]
      [(base + 2 * index, v.extractLsb' 8 8), (base + 2 * index + 1, v.extractLsb' 0 8)] ∧
    Stores s 0x00D5 (.store24Bl index v base len) 24 index base len v
      [.write (base + 3 * index) (v.extractLsb' 16 8), .write (base + 3 * index + 1) (v.extractLsb' 8 8), .write (base + 3 * index + 2) (v.extractLsb' 0 8)]
      [(base + 3 * index, v.extractLsb' 16 8), (base + 3 * index + 1, v.extractLsb' 8 8), (base + 3 * index + 2, v.extractLsb' 0 8)] ∧
    Stores s 0x00E5 (.store32Bl index v base len) 32 index base len v
      [.write (base + 4 * index) (v.extractLsb' 24 8), .write (base + 4 * index + 1) (v.extractLsb' 16 8), .write (base + 4 * index + 2) (v.extractLsb' 8 8), .write (base + 4 * index + 3) (v.extractLsb' 0 8)]
      [(base + 4 * index, v.extractLsb' 24 8), (base + 4 * index + 1, v.extractLsb' 16 8), (base + 4 * index + 2, v.extractLsb' 8 8), (base + 4 * index + 3, v.extractLsb' 0 8)] ∧
    ((index + 1) * 8 ≤ len * 8 ↔ index < len / 1) ∧
    ((index + 1) * 16 ≤ len * 8 ↔ index < len / 2) ∧
    ((index + 1) * 24 ≤ len * 8 ↔ index < len / 3) ∧
    ((index + 1) * 32 ≤ len * 8 ↔ index < len / 4)

/-- R168: round trip and idempotency. -/
def Obligations.StoreThenLoadReturnsTheValue : Prop :=
  ∀ (w : Width) (o o' : DataOrder) (index base len : Nat) (v : BitVec 32) (s t : State),
    exec (storeInstr w o index v base len) s = .next t → t.rspStatus = .ok →
    (∃ u, exec (loadInstr w o index base len) t = .next u ∧ u.response = ⟨.ok, maskw w v, 0⟩) ∧
    (∃ u, exec (storeInstr w o index v base len) t = .next u ∧ u.rspStatus = .ok ∧
      ∀ a, u.mem.read a = t.mem.read a) ∧
    (o' ≠ o → w.isSubByte = false →
      ∃ u, exec (loadInstr w o' index base len) t = .next u ∧
        u.response = ⟨.ok, packBytes (bytesLe (pixelBytes w) (maskw w v)).reverse, 0⟩) ∧
    (o' ≠ o → w.isSubByte = true →
      ∃ u u', exec (loadInstr w o' index base len) t = .next u ∧
        exec (loadInstr w o (index / perByte w * perByte w + (perByte w - 1 - index % perByte w)) base len) t = .next u' ∧
        u.response = u'.response ∧ u.rspStatus = .ok)

/-- R167: non-interference. -/
def Obligations.StoreLeavesEveryOtherPixel : Prop :=
  ∀ (w : Width) (o : DataOrder) (i base len : Nat) (v : BitVec 32) (s t : State),
    exec (storeInstr w o i v base len) s = .next t → t.rspStatus = .ok →
    (∀ j, j ≠ i → ∃ u u', exec (loadInstr w o j base len) s = .next u ∧
      exec (loadInstr w o j base len) t = .next u' ∧ u'.response = u.response) ∧
    (∀ a, a ∉ pixelAddrs w i base → t.mem.read a = s.mem.read a) ∧
    (w.isSubByte = true → ∀ n, n < 8 → ¬ (shift w o i ≤ n ∧ n < shift w o i + bits w) →
      (t.mem.read (base + byteIndex w i)).getLsbD n = (s.mem.read (base + byteIndex w i)).getLsbD n)

/-- R206: checks precede effects. -/
def Obligations.FailedCommandsHaveNoEffect : Prop :=
  ∀ (i : Instr) (s : State), ∃ t, exec i s = .next t ∧ t.rspValid = true ∧
    (t.rspStatus ≠ .ok → t = s.respond ⟨t.rspStatus, 0, 0⟩) ∧
    (t.rspStatus = .ok → ∃ new, t.trace = s.trace ++ new ∧
      match i.shape with
      | .value _ _ _ => new = []
      | .load w _ index base _ => new = (pixelAddrs w index base).map .read
      | .store w _ index _ base _ =>
        if w.isSubByte then ∃ byte, new = [.read (base + byteIndex w index), .write (base + byteIndex w index) byte]
        else ∃ bytes : List Byte, bytes.length = pixelBytes w ∧
          new = ((pixelAddrs w index base).zip bytes).map (fun c => .write c.1 c.2)) ∧
    ∀ (c : Command) (e : IllegalWord), decode (sample s.params c) = .error e →
      runCommand c s = .next ((s.accept (sample s.params c)).respond ⟨.illegal, 0, 0⟩)

/-- R67: the statuses. -/
def Obligations.StatusesEachOperationCanGive : Prop :=
  Status.ok.code = 0b00 ∧ Status.empty.code = 0b01 ∧ Status.outOfBounds.code = 0b10 ∧ Status.illegal.code = 0b11 ∧
  (∀ s : State, s.rspErr = s.rspStatus.code.getLsbD 1 ∧
    (s.rspErr = true ↔ s.rspStatus = .outOfBounds ∨ s.rspStatus = .illegal)) ∧
  (∀ (i : Instr) (s t : State), exec i s = .next t →
    match i.shape with
    | .value _ _ _ => t.rspStatus = .ok
    | .load w _ index base len =>
      t.rspStatus = if 2 ^ s.params.addrw < base + len then .illegal
        else if len * 8 < (index + 1) * bits w then .empty else .ok
    | .store w _ index _ base len =>
      t.rspStatus = if 2 ^ s.params.addrw < base + len then .illegal
        else if len * 8 < (index + 1) * bits w then .outOfBounds else .ok) ∧
  (∀ (s : State) (c : Command) (e : IllegalWord), s.agenda = [] → s.idle = true → s.presented = some c →
    decode (sample s.params c) = .error e → ∃ t, step s = .next t ∧ t.rspStatus = .illegal)

/-- R20: a function of the operands and the bytes read, and of nothing else. -/
def Obligations.OutcomeDependsOnlyOnOperandsAndPixel : Prop :=
  ∀ (i : Instr) (s s' : State), s.params = s'.params → (∀ a ∈ pixelOf i, s.mem.read a = s'.mem.read a) →
    ∃ t t' new, exec i s = .next t ∧ exec i s' = .next t' ∧ t.response = t'.response ∧
      t.trace = s.trace ++ new ∧ t'.trace = s'.trace ++ new ∧ (∀ a ∈ pixelOf i, t.mem.read a = t'.mem.read a)

/-- R47 and R244: where and how often the memory port is used. -/
def Obligations.AccessesStayInTheBuffer : Prop :=
  ∀ (i : Instr) (s t : State), exec i s = .next t → ∃ new, t.trace = s.trace ++ new ∧
    match i.shape with
    | .value _ _ _ => new = [] ∧ t.mem = s.mem
    | .load w _ _ base len =>
      (∀ x ∈ new, base ≤ x.addr ∧ x.addr < base + len) ∧ t.mem = s.mem ∧
      new.length = if t.rspStatus = .ok then (if w.isSubByte then 1 else pixelBytes w) else 0
    | .store w _ _ _ base len =>
      (∀ x ∈ new, base ≤ x.addr ∧ x.addr < base + len) ∧
      (∀ a, ¬ (base ≤ a ∧ a < base + len) → t.mem.read a = s.mem.read a) ∧
      new.length = if t.rspStatus = .ok then (if w.isSubByte then 2 else pixelBytes w) else 0

/-- R43: a mixed-width view of one buffer. -/
def Obligations.MixedWidthViewOfAByte : Prop :=
  ∀ (s : State) (base len j : Nat), base + len ≤ 2 ^ s.params.addrw → j < len →
    ∃ t a b a' b', exec (.load8Lm j base len) s = .next t ∧ exec (.load4Lm (2 * j) base len) s = .next a ∧
      exec (.load4Lm (2 * j + 1) base len) s = .next b ∧ exec (.load4Bl (2 * j) base len) s = .next a' ∧
      exec (.load4Bl (2 * j + 1) base len) s = .next b' ∧ t.rspStatus = .ok ∧ a.rspStatus = .ok ∧
      b.rspStatus = .ok ∧ a'.rspStatus = .ok ∧ b'.rspStatus = .ok ∧
      t.rspValue.toNat = a.rspValue.toNat * 16 + b.rspValue.toNat ∧
      a'.response = b.response ∧ b'.response = a.response

/-- R36 gives busy, rsp_valid, mem_req_valid, mem_we and cmd_ready. The model's own: no request outstanding (DEDUCED, log 3),
the parameters of State at the defaults of R5 (log 1), the idle step without a host (log 4). -/
def Obligations.ResetStateIsIdle : Prop :=
  State.reset.busy = false ∧ State.reset.rspValid = false ∧ State.reset.memReqValid = false ∧
  State.reset.memWe = false ∧ State.reset.memOutstanding = false ∧ State.reset.cmdReady = true ∧
  State.reset.params = ⟨32, 32, 32⟩ ∧ step State.reset = .next State.reset

/-- The start of the invariant. That no request is outstanding at reset is the model's reading (DEDUCED, log 3); mem_we is 0
there by R36. -/
def Obligations.InvariantHoldsAtReset : Prop :=
  State.reset.Inv ∧ ∀ nbits w : Nat, (State.reset.withFetchWord nbits w).Inv

/-- The invariant that every step keeps, from every state that has it. The model's own, not the rules': nothing is outstanding
after a reset in mid-command (DESIGN CHOICE, log 21), the request registers keep a request while it is outstanding (DESIGN
CHOICE, log 20), and mem_we is 0 in every idle block (DEDUCED from R20, R36 and R147, log 20). -/
def Obligations.EveryStepKeepsTheInvariant : Prop :=
  ∀ s t : State, s.Inv → step s = .next t → t.Inv

/-- R245 and D27: progress with a memory that answers at once, and atomic execution as a refinement of the accesses of R44.
The bound 14 is the model's choice of one handshake an edge (log 6), not the spec's; the byte counter and the request registers in the
state reached are those of logs 7 and 20. -/
def Obligations.EdgeByEdgeRunReachesExec : Prop :=
  ∀ (s : State) (c : Command), s.idle = true → s.presented = some c →
    ∃ n t, n ≤ 14 ∧ runCommand c s = .next t ∧ t.rspValid = true ∧
      runEdges (List.replicate n Edge.undisturbed) s = .next t

/-- R50 and R51: disjoint bytes are safe to parallelize; R46: no byte access is torn. The block leaves every byte outside the
pixel to the other agents. The byte counter and the request registers in the state reached are those of logs 7 and 20. -/
def Obligations.WaitingAndOutsideWritersDoNotMatter : Prop :=
  ∀ (s : State) (c : Command) (i : Instr) (es : List Edge) (u : State), s.idle = true → s.presented = some c →
    decode (sample s.params c) = .ok i → (∀ e ∈ es, e.avoids (pixelOf i) = true) →
    runEdges es s = .next u → u.rspValid = true →
    ∃ t, runCommand c s = .next t ∧ u = { t with mem := u.mem } ∧ u.response = t.response ∧ u.trace = t.trace ∧
      u.op = t.op ∧ u.k = t.k ∧ u.rd = t.rd ∧ KeepsHost t u ∧ (∀ a ∈ pixelOf i, u.mem.read a = t.mem.read a) ∧
      ∀ a, a ∉ pixelOf i → u.mem.read a = (outsideWrites es s.mem).read a

/-- R232: reset during a byte-aligned STORE. That the host's position stays is the model's reading (log 10), that a request
which lands does so at the reset edge its choice (log 21), that a response offered at the reset edge is not taken, host ready
or not, its choice too (log 22). -/
def Obligations.ResetDuringByteAlignedCommand : Prop :=
  ∀ (s t : State) (c : Command) (w : Width) (o : DataOrder) (index base len : Nat) (v : BitVec 32) (es : List Edge)
    (r : Edge), s.idle = true → s.presented = some c →
    decode (sample s.params c) = .ok (storeInstr w o index v base len) → w.isSubByte = false →
    base + len ≤ 2 ^ s.params.addrw → (index + 1) * bits w ≤ len * 8 →
    (∀ e ∈ es, e.quiet = true) → r.rst = true → r.agents = [] → runEdges (es ++ [r]) s = .next t →
    (∃ j ≤ pixelBytes w, ∀ a, t.mem.read a =
      if base + byteOffset w index ≤ a ∧ a < base + byteOffset w index + j
      then (split (pixelBytes w) o (maskw w v))[a - (base + byteOffset w index)]?.getD 0 else s.mem.read a) ∧
    t.busy = false ∧ t.rspValid = false ∧ t.memReqValid = false ∧ t.cmdReady = false ∧ t.taken = s.taken ∧
    t.pos = s.pos

/-- R232: reset during a sub-byte STORE, a STORE that fails its checks, a LOAD, a value operation or an illegal word. The
model's choice: a request which lands does so at the reset edge (log 21), and a response offered at that edge is not taken,
host ready or not (log 22). -/
def Obligations.ResetDuringSubByteCommand : Prop :=
  ∀ (s t : State) (c : Command) (es : List Edge) (r : Edge), s.idle = true → s.presented = some c →
    (∀ e ∈ es, e.quiet = true) → r.rst = true → r.agents = [] → runEdges (es ++ [r]) s = .next t →
    (∀ i, decode (sample s.params c) = .ok i →
      match i.shape with
      | .store w o index v base len =>
        (w.isSubByte = true → base + len ≤ 2 ^ s.params.addrw → (index + 1) * bits w ≤ len * 8 →
          (∀ a, a ≠ base + byteIndex w index → t.mem.read a = s.mem.read a) ∧
          (t.mem.read (base + byteIndex w index) = s.mem.read (base + byteIndex w index) ∨
            t.mem.read (base + byteIndex w index) =
              insertField w (shift w o index) (s.mem.read (base + byteIndex w index)) (maskw w v))) ∧
        (2 ^ s.params.addrw < base + len ∨ len * 8 < (index + 1) * bits w → t.mem = s.mem)
      | _ => t.mem = s.mem) ∧
    (∀ e : IllegalWord, decode (sample s.params c) = .error e → t.mem = s.mem) ∧
    t.busy = false ∧ t.rspValid = false ∧ t.memReqValid = false ∧ t.taken = s.taken

/-- R34 and R52: the lost update. One handshake an edge is the model's choice (log 6). -/
def Obligations.WriteBetweenReadAndMergeIsLost : Prop :=
  ∀ (s : State) (c : Command) (w : Width) (o : DataOrder) (index base len : Nat) (v : BitVec 32) (x : Byte),
    s.idle = true → s.presented = some c → decode (sample s.params c) = .ok (storeInstr w o index v base len) →
    w.isSubByte = true → base + len ≤ 2 ^ s.params.addrw → (index + 1) * bits w ≤ len * 8 →
    ∃ t, runEdges ([Edge.undisturbed, Edge.undisturbed, Edge.undisturbed, Edge.undisturbed] ++
        [Edge.mk [(base + byteIndex w index, x)] false false true true true true none] ++
        [Edge.undisturbed, Edge.undisturbed, Edge.undisturbed]) s = .next t ∧
      t.rspValid = true ∧ t.response = ⟨.ok, 0, 0⟩ ∧
      t.mem.read (base + byteIndex w index) =
        insertField w (shift w o index) (s.mem.read (base + byteIndex w index)) (maskw w v)

/-- R44 and R46: one byte at a time, whole. That the byte changes at the edge that completes the access is the model's reading
(DEDUCED, log 9; at a reset edge log 21), that mem_addr, mem_we and mem_wdata still hold a request once it is accepted its choice (log 20), and
the trace that shows it is the model's own record (log 12): no rule says so. -/
def Obligations.AnEdgeWritesAtMostTheRequestedByte : Prop :=
  ∀ (e : Edge) (s t : State), e.agents = [] → clockEdge e s = .next t →
    (∀ a, t.mem.read a = s.mem.read a ∨
      (a = s.memAddr ∧ s.memWe = true ∧ t.mem.read a = s.memWdata ∧ (s.memReqValid = true ∨ s.memOutstanding = true))) ∧
    (t.trace = s.trace → t.mem = s.mem)

/-- R32: the response port. -/
def Obligations.ResponseIsHeldUntilTaken : Prop :=
  (∀ (e : Edge) (s t : State), s.rspValid = true → s.rst = false → e.rst = false → clockEdge e s = .next t →
    (e.rspReady = false → t.rspValid = true ∧ t.rspStatus = s.rspStatus ∧ t.rspValue = s.rspValue ∧
      t.rspNbytes = s.rspNbytes ∧ t.op = s.op ∧ t.taken = s.taken) ∧
    (e.rspReady = true → t.rspValid = false ∧ t.busy = false ∧ t.taken = s.taken ++ [s.response] ∧ t.pos = s.pos + 1)) ∧
  (∀ s : State, s.rspErr = s.rspStatus.code.getLsbD 1)

/-- R22: the position advances with each response. The model's own: that it stays at a reset edge (logs 10 and 22), and that
no step changes the list (log 4) or the parameters (log 1). -/
def Obligations.HostPositionAdvancesWithEachResponse : Prop :=
  ∀ s t : State, step s = .next t → t.params = s.params ∧ t.program = s.program ∧
    ((t.pos = s.pos ∧ t.taken = s.taken) ∨
     (s.rspValid = true ∧ t.rspValid = false ∧ t.busy = false ∧ t.pos = s.pos + 1 ∧ t.taken = s.taken ++ [s.response]))

/-- R35: one command at a time. -/
def Obligations.OneCommandAtATime : Prop :=
  ∀ s t : State, step s = .next t →
    (s.busy = false → t.busy = true → s.cmdReady = true ∧ ∃ c, s.presented = some c ∧ t.op = sample s.params c) ∧
    (s.busy = true → t.busy = true → t.op = s.op) ∧
    (s.busy = true → t.busy = false →
      (s.rspValid = true ∧ t.rspValid = false ∧ t.taken = s.taken ++ [s.response]) ∨ t.rst = true)

/-- R245: stuck, not faulted. -/
def Obligations.SilentMemoryLeavesTheBlockBusy : Prop :=
  ∀ (s : State) (es : List Edge), s.busy = true → s.rst = false → s.rspValid = false → s.memReqValid = false →
    s.memOutstanding = true → (∀ e ∈ es, e.rst = false ∧ e.memRspValid = false ∧ e.agents = []) →
    runEdges es s = .next s

/-- R231: the state after reset, and cmd_ready. The model's own: the edge at which rst falls accepts nothing (DEDUCED, log 18),
the position stays (logs 10 and 22), no request is outstanding (DEDUCED, log 3), the registers that hold any value after reset keep it over the
second edge (DESIGN CHOICE, log 8). -/
def Obligations.ResetEdgeMakesTheBlockIdle : Prop :=
  ∀ (e e' : Edge) (s : State), e.rst = true → e.agents = [] → e'.rst = false → e'.agents = [] →
    s.memReqValid = false → s.memOutstanding = false →
    ∃ t u, clockEdge e s = .next t ∧ t.busy = false ∧ t.rspValid = false ∧ t.memReqValid = false ∧ t.memWe = false ∧
      t.memOutstanding = false ∧ t.cmdReady = false ∧ t.mem = s.mem ∧ t.trace = s.trace ∧ t.program = s.program ∧
      t.pos = s.pos ∧ t.taken = s.taken ∧ clockEdge e' t = .next u ∧ u.cmdReady = true ∧
      u = { t with rst := false } ∧ u.busy = false ∧ u.mem = s.mem ∧ u.program = s.program ∧ u.pos = s.pos ∧
      u.taken = s.taken ∧ u.trace = s.trace

/-- R245: progress, with any finite waits. The number 14 is the model's choice of one handshake an edge (log 6). -/
def Obligations.CommandsFinishWithASlowMemory : Prop :=
  ∀ (s : State) (c : Command) (es : List Edge), s.idle = true → s.presented = some c →
    (∀ e ∈ es, e.avoids [] = true ∧ ∀ a ∈ e.agents, a.1 < 2 ^ s.params.addrw) → 14 ≤ es.countP Edge.ready →
    ∃ u, runEdges es s = .next u ∧ u.rspValid = true

/-- R147 and R20: a LOAD outlives itself in nothing but its response. That mem_we of an idle block is 0 is DEDUCED (log 20), and
the host's list, the one-step command and the trace are the model's (logs 4, 5 and 12). -/
def Obligations.LoadLeavesNothingBehind : Prop :=
  ∀ (s : State) (c : Command) (w : Width) (o : DataOrder) (index base len : Nat), s.Inv → s.agenda = [] →
    s.idle = true → s.presented = some c → decode (sample s.params c) = .ok (loadInstr w o index base len) →
    ∃ t u v new, step s = .next t ∧ t.rspValid = true ∧ step t = .next u ∧ u.mem = s.mem ∧
      u.trace = s.trace ++ new ∧ (∀ x ∈ new, ∃ a ∈ pixelAddrs w index base, x = .read a) ∧
      (t.rspStatus ≠ .ok → new = []) ∧ u.params = s.params ∧ u.rst = s.rst ∧ u.busy = s.busy ∧
      u.rspValid = s.rspValid ∧ u.memReqValid = s.memReqValid ∧ u.memOutstanding = s.memOutstanding ∧
      u.memWe = s.memWe ∧ u.cmdReady = s.cmdReady ∧ u.program = s.program ∧ u.pos = s.pos + 1 ∧
      u.taken = s.taken ++ [t.response] ∧ exec (loadInstr w o index base len) u = .next v ∧
      v.response = t.response
end

