-- ==== Sys2Proof/Laws/Memory.lean ====
section
/-! SUPPORT. The two laws of memory (a read after a write gives the byte written; every other byte stays), and the
canonical form, which every write keeps. -/

namespace Sys2Proof.Machine

theorem Memory.read_nil (a : Nat) : Memory.read [] a = Config.unlistedByte := rfl

theorem Memory.read_cons (c : Host.Cell) (m : Memory) (a : Nat) :
    Memory.read (c :: m) a = if c.1 = a then c.2 else Memory.read m a := by
  by_cases h : c.1 = a <;> simp [Memory.read, h]

theorem Memory.read_filter_same (m : Memory) (a : Nat) :
    Memory.read (m.filter (fun c => c.1 != a)) a = Config.unlistedByte := by
  induction m with
  | nil => rfl
  | cons c m ih =>
    by_cases h : c.1 = a
    · simpa [h] using ih
    · simp [h, Memory.read_cons, ih]

theorem Memory.read_filter_other (m : Memory) {a b : Nat} (hab : b ≠ a) :
    Memory.read (m.filter (fun c => c.1 != a)) b = Memory.read m b := by
  induction m with
  | nil => rfl
  | cons c m ih =>
    by_cases h : c.1 = a
    · have hb : c.1 ≠ b := fun e => hab (e.symm.trans h)
      simp [h, Memory.read_cons, ih, Ne.symm hab]
    · simp [h, Memory.read_cons, ih]

theorem Memory.read_place (m : Memory) (a : Nat) (v : Byte) (hm : ∀ c ∈ m, c.1 ≠ a) (b : Nat) :
    Memory.read (Memory.place a v m) b = if a = b then v else Memory.read m b := by
  induction m with
  | nil => simp [Memory.place, Memory.read_cons, Memory.read_nil]
  | cons c m ih =>
    have hc : c.1 ≠ a := hm c (by simp)
    have ih' := ih (fun d hd => hm d (by simp [hd]))
    unfold Memory.place
    split
    · simp [Memory.read_cons]
    · rw [Memory.read_cons, ih', Memory.read_cons]
      by_cases hb : c.1 = b
      · simp [hb, show a ≠ b from fun e => hc (hb.trans e.symm)]
      · simp [hb]

/-- One law says what a write does to every read. -/
theorem Memory.read_write (m : Memory) (a : Nat) (v : Byte) (b : Nat) :
    (m.write a v).read b = if a = b then v else m.read b := by
  unfold Memory.write
  by_cases hv : v = Config.unlistedByte
  · by_cases hb : a = b
    · subst hb; simp [hv, Memory.read_filter_same]
    · simp [hv, hb, Memory.read_filter_other m (Ne.symm hb)]
  · rw [if_neg hv, Memory.read_place _ _ _ (by simp)]
    by_cases hb : a = b
    · simp [hb]
    · simp [hb, Memory.read_filter_other m (Ne.symm hb)]

@[simp] theorem Memory.read_write_same (m : Memory) (a : Nat) (v : Byte) : (m.write a v).read a = v := by
  simp [Memory.read_write]

theorem Memory.read_write_other (m : Memory) {a b : Nat} (v : Byte) (h : a ≠ b) :
    (m.write a v).read b = m.read b := by
  simp [Memory.read_write, h]

theorem Memory.mem_place {m : Memory} {a : Nat} {v : Byte} {c : Host.Cell} :
    c ∈ Memory.place a v m ↔ c = (a, v) ∨ c ∈ m := by
  induction m with
  | nil => simp [Memory.place]
  | cons d m ih =>
    unfold Memory.place
    split <;> simp [ih, or_left_comm]

theorem Memory.place_sorted {m : Memory} {a : Nat} {v : Byte} (hs : m.Pairwise (fun c d => c.1 < d.1))
    (hm : ∀ c ∈ m, c.1 ≠ a) : (Memory.place a v m).Pairwise (fun c d => c.1 < d.1) := by
  induction m with
  | nil => simp [Memory.place]
  | cons c m ih =>
    obtain ⟨h1, h2⟩ := List.pairwise_cons.mp hs
    unfold Memory.place
    split
    · rename_i h
      refine List.pairwise_cons.mpr ⟨?_, hs⟩
      intro d hd
      rcases List.mem_cons.mp hd with rfl | hd
      · exact h
      · exact Nat.lt_trans h (h1 d hd)
    · rename_i h
      have hlt : c.1 < a := lt_of_le_of_ne (Nat.le_of_not_lt h) (hm c (by simp))
      refine List.pairwise_cons.mpr ⟨?_, ih h2 (fun d hd => hm d (by simp [hd]))⟩
      intro d hd
      rcases Memory.mem_place.mp hd with rfl | hd
      · exact hlt
      · exact h1 d hd

theorem Memory.wf_iff (m : Memory) :
    m.wf = true ↔ m.Pairwise (fun c d => c.1 < d.1) ∧ ∀ c ∈ m, c.2 ≠ Config.unlistedByte := by
  simp [Memory.wf]

/-- Every write keeps the canonical form. -/
theorem Memory.write_wf {m : Memory} (h : m.wf = true) (a : Nat) (v : Byte) : (m.write a v).wf = true := by
  rw [Memory.wf_iff] at *
  obtain ⟨hs, hn⟩ := h
  have hs' : (m.filter (fun c => c.1 != a)).Pairwise (fun c d => c.1 < d.1) := hs.filter _
  unfold Memory.write
  by_cases hv : v = Config.unlistedByte
  · simp only [if_pos hv]
    exact ⟨hs', fun c hc => hn c (List.mem_filter.mp hc).1⟩
  · simp only [if_neg hv]
    refine ⟨Memory.place_sorted hs' (by simp), fun c hc => ?_⟩
    rcases Memory.mem_place.mp hc with rfl | hc
    · exact hv
    · exact hn c (List.mem_filter.mp hc).1

/-- A write lists at most the address written and what was listed. -/
theorem Memory.mem_write {m : Memory} {a : Nat} {v : Byte} {c : Host.Cell} (h : c ∈ m.write a v) :
    c = (a, v) ∨ c ∈ m := by
  unfold Memory.write at h
  by_cases hv : v = Config.unlistedByte
  · simp only [if_pos hv] at h
    exact .inr (List.mem_filter.mp h).1
  · simp only [if_neg hv] at h
    rcases Memory.mem_place.mp h with h | h
    · exact .inl h
    · exact .inr (List.mem_filter.mp h).1

/-- Memories in canonical form that read alike are equal data. -/
theorem Memory.eq_of_read_eq {m n : Memory} (hm : m.wf = true) (hn : n.wf = true)
    (h : ∀ a, m.read a = n.read a) : m = n := by
  rw [Memory.wf_iff] at hm hn
  have lookup : ∀ (l : Memory), l.Pairwise (fun c d => c.1 < d.1) → ∀ c ∈ l, l.read c.1 = c.2 := by
    intro l hl c hc
    induction l with
    | nil => simp at hc
    | cons d l ih =>
      obtain ⟨h1, h2⟩ := List.pairwise_cons.mp hl
      rw [Memory.read_cons]
      rcases List.mem_cons.mp hc with rfl | hc
      · simp
      · rw [if_neg (Nat.ne_of_lt (h1 c hc)), ih h2 hc]
  have listed : ∀ (l : Memory) (a : Nat), l.read a ≠ Config.unlistedByte → (a, l.read a) ∈ l := by
    intro l a
    induction l with
    | nil => intro h; exact absurd rfl h
    | cons d l ih =>
      intro h
      rw [Memory.read_cons] at h ⊢
      by_cases hd : d.1 = a
      · simp only [if_pos hd] at h ⊢
        exact List.mem_cons.mpr (.inl (Prod.ext hd.symm rfl))
      · simp only [if_neg hd] at h ⊢
        exact List.mem_cons.mpr (.inr (ih h))
  have sub : ∀ (l l' : Memory), l.Pairwise (fun c d => c.1 < d.1) →
      (∀ c ∈ l, c.2 ≠ Config.unlistedByte) → (∀ a, l.read a = l'.read a) → ∀ c ∈ l, c ∈ l' := by
    intro l l' hl hz he c hc
    have h1 := lookup l hl c hc
    have h2 := listed l' c.1 (by rw [← he, h1]; exact hz c hc)
    rw [← he, h1] at h2
    exact h2
  have nodup : ∀ (l : Memory), l.Pairwise (fun c d => c.1 < d.1) → l.Nodup := fun l hl =>
    hl.imp (fun {c d} hcd e => absurd (congrArg Prod.fst e) (Nat.ne_of_lt hcd))
  have perm : m.Perm n :=
    (List.perm_ext_iff_of_nodup (nodup m hm.1) (nodup n hn.1)).mpr fun c =>
      ⟨sub m n hm.1 hm.2 h c, sub n m hn.1 hn.2 (fun a => (h a).symm) c⟩
  exact perm.eq_of_pairwise (fun c d _ _ hcd hdc => absurd hcd (Nat.lt_asymm hdc)) hm.1 hn.1

end Sys2Proof.Machine
end

