-- ==== Sys2Proof/Laws/Pixel.lean ====
section
/-! SUPPORT. The bytes of a value, one lemma per function of the extractor and inserter. -/

namespace Sys2Proof.Machine

theorem byteAt_getLsbD (v : BitVec 32) (j i : Nat) (hi : i < 8) :
    (byteAt v j).getLsbD i = v.getLsbD (8 * j + i) := by
  simp [byteAt, hi]

/-- The read latch: a byte put in its lane is read there, the other lanes stay. -/
theorem byteAt_setByte (rd : BitVec 32) (b : Byte) {i j : Nat} (hj : j < 4) :
    byteAt (setByte rd j b) i = if i = j then b else byteAt rd i := by
  apply BitVec.eq_of_getLsbD_eq
  intro n hn
  rw [byteAt_getLsbD _ _ _ hn]
  split
  · subst i
    have h1 : 8 * j + n < 32 := by omega
    have h2 : ¬ 8 * j + n < 8 * j := by omega
    have h3 : 8 * j + n - 8 * j = n := by omega
    have h4 : (255#32).getLsbD n = true := by
      interval_cases n <;> rfl
    simp [setByte, h1, h2, h3, h4]
  · rename_i hij
    rw [byteAt_getLsbD _ _ _ hn]
    by_cases h1 : 8 * i + n < 32
    · by_cases h2 : 8 * i + n < 8 * j
      · simp [setByte, h1, h2]
      · have h3 : 8 ≤ 8 * i + n - 8 * j := by omega
        have h4 : (255#32).getLsbD (8 * i + n - 8 * j) = false := by
          have : (255#32).getLsbD (8 * i + n - 8 * j) = (255 : Nat).testBit (8 * i + n - 8 * j) := by
            simp [BitVec.getLsbD]
          rw [this]
          exact Nat.testBit_lt_two_pow (Nat.lt_of_lt_of_le (by norm_num) (Nat.pow_le_pow_right (by norm_num) h3))
        have h5 : b.getLsbD (8 * i + n - 8 * j) = false := BitVec.getLsbD_of_ge _ _ h3
        simp [setByte, h1, h2, h5]
        intro _
        rw [← BitVec.getLsbD_eq_getElem]
        exact h4
    · simp [BitVec.getLsbD_of_ge _ _ (Nat.le_of_not_lt h1)]

theorem bytesLe_length (n : Nat) (v : BitVec 32) : (bytesLe n v).length = n := by simp [bytesLe]

theorem bytesBe_length (n : Nat) (v : BitVec 32) : (bytesBe n v).length = n := by simp [bytesBe]

theorem split_length (n : Nat) (o : DataOrder) (v : BitVec 32) : (split n o v).length = n := by
  cases o <;> simp [split, bytesLe_length, bytesBe_length]

theorem bytesLe_getElem? (n : Nat) (v : BitVec 32) (j : Nat) :
    (bytesLe n v)[j]? = if j < n then some (byteAt v j) else none := by
  by_cases h : j < n <;> simp [bytesLe, h]

/-- The big-endian list is the little-endian list reversed. -/
theorem bytesBe_eq_reverse (n : Nat) (v : BitVec 32) : bytesBe n v = (bytesLe n v).reverse := by
  apply List.ext_getElem <;> simp [bytesBe, bytesLe]

end Sys2Proof.Machine
end

