-- ==== Sys2Proof/Laws/State.lean ====
section
/-! SUPPORT. One lemma per field per update of State, true by rfl, so that no proof unfolds a record update. -/

namespace Sys2Proof.Machine

@[simp] theorem State.forget_params (s : State) : (s.forget).params = s.params := rfl
@[simp] theorem State.forget_rst (s : State) : (s.forget).rst = s.rst := rfl
@[simp] theorem State.forget_busy (s : State) : (s.forget).busy = s.busy := rfl
@[simp] theorem State.forget_op (s : State) : (s.forget).op = sample s.params ⟨BitVec.ofNat 16 (Config.unspecified (s.unspec + 0)), Config.unspecified (s.unspec + 1), BitVec.ofNat 32 (Config.unspecified (s.unspec + 2)), Config.unspecified (s.unspec + 3), Config.unspecified (s.unspec + 4)⟩ := rfl
@[simp] theorem State.forget_k (s : State) : (s.forget).k = BitVec.ofNat 3 (Config.unspecified (s.unspec + 5)) := rfl
@[simp] theorem State.forget_rd (s : State) : (s.forget).rd = BitVec.ofNat 32 (Config.unspecified (s.unspec + 6)) := rfl
@[simp] theorem State.forget_rspValid (s : State) : (s.forget).rspValid = s.rspValid := rfl
@[simp] theorem State.forget_rspStatus (s : State) : (s.forget).rspStatus = Status.ofCode (BitVec.ofNat 2 (Config.unspecified (s.unspec + 7))) := rfl
@[simp] theorem State.forget_rspValue (s : State) : (s.forget).rspValue = BitVec.ofNat 32 (Config.unspecified (s.unspec + 8)) := rfl
@[simp] theorem State.forget_rspNbytes (s : State) : (s.forget).rspNbytes = BitVec.ofNat 3 (Config.unspecified (s.unspec + 9)) := rfl
@[simp] theorem State.forget_memReqValid (s : State) : (s.forget).memReqValid = s.memReqValid := rfl
@[simp] theorem State.forget_memOutstanding (s : State) : (s.forget).memOutstanding = s.memOutstanding := rfl
@[simp] theorem State.forget_memWe (s : State) : (s.forget).memWe = s.memWe := rfl
@[simp] theorem State.forget_memAddr (s : State) : (s.forget).memAddr = Config.unspecified (s.unspec + 10) % 2 ^ s.params.addrw := rfl
@[simp] theorem State.forget_memWdata (s : State) : (s.forget).memWdata = BitVec.ofNat 8 (Config.unspecified (s.unspec + 11)) := rfl
@[simp] theorem State.forget_mem (s : State) : (s.forget).mem = s.mem := rfl
@[simp] theorem State.forget_program (s : State) : (s.forget).program = s.program := rfl
@[simp] theorem State.forget_pos (s : State) : (s.forget).pos = s.pos := rfl
@[simp] theorem State.forget_taken (s : State) : (s.forget).taken = s.taken := rfl
@[simp] theorem State.forget_agenda (s : State) : (s.forget).agenda = s.agenda := rfl
@[simp] theorem State.forget_trace (s : State) : (s.forget).trace = s.trace := rfl
@[simp] theorem State.forget_unspec (s : State) : (s.forget).unspec = s.unspec + 12 := rfl

@[simp] theorem State.accept_params (c : Command) (s : State) : (s.accept c).params = s.params := rfl
@[simp] theorem State.accept_rst (c : Command) (s : State) : (s.accept c).rst = s.rst := rfl
@[simp] theorem State.accept_busy (c : Command) (s : State) : (s.accept c).busy = true := rfl
@[simp] theorem State.accept_op (c : Command) (s : State) : (s.accept c).op = c := rfl
@[simp] theorem State.accept_k (c : Command) (s : State) : (s.accept c).k = 0 := rfl
@[simp] theorem State.accept_rd (c : Command) (s : State) : (s.accept c).rd = s.rd := rfl
@[simp] theorem State.accept_rspValid (c : Command) (s : State) : (s.accept c).rspValid = s.rspValid := rfl
@[simp] theorem State.accept_rspStatus (c : Command) (s : State) : (s.accept c).rspStatus = s.rspStatus := rfl
@[simp] theorem State.accept_rspValue (c : Command) (s : State) : (s.accept c).rspValue = s.rspValue := rfl
@[simp] theorem State.accept_rspNbytes (c : Command) (s : State) : (s.accept c).rspNbytes = s.rspNbytes := rfl
@[simp] theorem State.accept_memReqValid (c : Command) (s : State) : (s.accept c).memReqValid = s.memReqValid := rfl
@[simp] theorem State.accept_memOutstanding (c : Command) (s : State) : (s.accept c).memOutstanding = s.memOutstanding := rfl
@[simp] theorem State.accept_memWe (c : Command) (s : State) : (s.accept c).memWe = s.memWe := rfl
@[simp] theorem State.accept_memAddr (c : Command) (s : State) : (s.accept c).memAddr = s.memAddr := rfl
@[simp] theorem State.accept_memWdata (c : Command) (s : State) : (s.accept c).memWdata = s.memWdata := rfl
@[simp] theorem State.accept_mem (c : Command) (s : State) : (s.accept c).mem = s.mem := rfl
@[simp] theorem State.accept_program (c : Command) (s : State) : (s.accept c).program = s.program := rfl
@[simp] theorem State.accept_pos (c : Command) (s : State) : (s.accept c).pos = s.pos := rfl
@[simp] theorem State.accept_taken (c : Command) (s : State) : (s.accept c).taken = s.taken := rfl
@[simp] theorem State.accept_agenda (c : Command) (s : State) : (s.accept c).agenda = s.agenda := rfl
@[simp] theorem State.accept_trace (c : Command) (s : State) : (s.accept c).trace = s.trace := rfl
@[simp] theorem State.accept_unspec (c : Command) (s : State) : (s.accept c).unspec = s.unspec := rfl

@[simp] theorem State.respond_params (s : State) (r : Response) : (s.respond r).params = s.params := rfl
@[simp] theorem State.respond_rst (s : State) (r : Response) : (s.respond r).rst = s.rst := rfl
@[simp] theorem State.respond_busy (s : State) (r : Response) : (s.respond r).busy = s.busy := rfl
@[simp] theorem State.respond_op (s : State) (r : Response) : (s.respond r).op = s.op := rfl
@[simp] theorem State.respond_k (s : State) (r : Response) : (s.respond r).k = s.k := rfl
@[simp] theorem State.respond_rd (s : State) (r : Response) : (s.respond r).rd = s.rd := rfl
@[simp] theorem State.respond_rspValid (s : State) (r : Response) : (s.respond r).rspValid = true := rfl
@[simp] theorem State.respond_rspStatus (s : State) (r : Response) : (s.respond r).rspStatus = r.status := rfl
@[simp] theorem State.respond_rspValue (s : State) (r : Response) : (s.respond r).rspValue = r.value := rfl
@[simp] theorem State.respond_rspNbytes (s : State) (r : Response) : (s.respond r).rspNbytes = r.nbytes := rfl
@[simp] theorem State.respond_memReqValid (s : State) (r : Response) : (s.respond r).memReqValid = s.memReqValid := rfl
@[simp] theorem State.respond_memOutstanding (s : State) (r : Response) : (s.respond r).memOutstanding = s.memOutstanding := rfl
@[simp] theorem State.respond_memWe (s : State) (r : Response) : (s.respond r).memWe = s.memWe := rfl
@[simp] theorem State.respond_memAddr (s : State) (r : Response) : (s.respond r).memAddr = s.memAddr := rfl
@[simp] theorem State.respond_memWdata (s : State) (r : Response) : (s.respond r).memWdata = s.memWdata := rfl
@[simp] theorem State.respond_mem (s : State) (r : Response) : (s.respond r).mem = s.mem := rfl
@[simp] theorem State.respond_program (s : State) (r : Response) : (s.respond r).program = s.program := rfl
@[simp] theorem State.respond_pos (s : State) (r : Response) : (s.respond r).pos = s.pos := rfl
@[simp] theorem State.respond_taken (s : State) (r : Response) : (s.respond r).taken = s.taken := rfl
@[simp] theorem State.respond_agenda (s : State) (r : Response) : (s.respond r).agenda = s.agenda := rfl
@[simp] theorem State.respond_trace (s : State) (r : Response) : (s.respond r).trace = s.trace := rfl
@[simp] theorem State.respond_unspec (s : State) (r : Response) : (s.respond r).unspec = s.unspec := rfl

@[simp] theorem State.takeResponse_params (s : State) : (s.takeResponse).params = s.params := rfl
@[simp] theorem State.takeResponse_rst (s : State) : (s.takeResponse).rst = s.rst := rfl
@[simp] theorem State.takeResponse_busy (s : State) : (s.takeResponse).busy = false := rfl
@[simp] theorem State.takeResponse_op (s : State) : (s.takeResponse).op = s.forget.op := rfl
@[simp] theorem State.takeResponse_k (s : State) : (s.takeResponse).k = s.forget.k := rfl
@[simp] theorem State.takeResponse_rd (s : State) : (s.takeResponse).rd = s.forget.rd := rfl
@[simp] theorem State.takeResponse_rspValid (s : State) : (s.takeResponse).rspValid = false := rfl
@[simp] theorem State.takeResponse_rspStatus (s : State) : (s.takeResponse).rspStatus = s.forget.rspStatus := rfl
@[simp] theorem State.takeResponse_rspValue (s : State) : (s.takeResponse).rspValue = s.forget.rspValue := rfl
@[simp] theorem State.takeResponse_rspNbytes (s : State) : (s.takeResponse).rspNbytes = s.forget.rspNbytes := rfl
@[simp] theorem State.takeResponse_memReqValid (s : State) : (s.takeResponse).memReqValid = s.memReqValid := rfl
@[simp] theorem State.takeResponse_memOutstanding (s : State) : (s.takeResponse).memOutstanding = s.memOutstanding := rfl
@[simp] theorem State.takeResponse_memWe (s : State) : (s.takeResponse).memWe = false := rfl
@[simp] theorem State.takeResponse_memAddr (s : State) : (s.takeResponse).memAddr = s.forget.memAddr := rfl
@[simp] theorem State.takeResponse_memWdata (s : State) : (s.takeResponse).memWdata = s.forget.memWdata := rfl
@[simp] theorem State.takeResponse_mem (s : State) : (s.takeResponse).mem = s.mem := rfl
@[simp] theorem State.takeResponse_program (s : State) : (s.takeResponse).program = s.program := rfl
@[simp] theorem State.takeResponse_pos (s : State) : (s.takeResponse).pos = s.pos + 1 := rfl
@[simp] theorem State.takeResponse_taken (s : State) : (s.takeResponse).taken = s.taken ++ [s.response] := rfl
@[simp] theorem State.takeResponse_agenda (s : State) : (s.takeResponse).agenda = s.agenda := rfl
@[simp] theorem State.takeResponse_trace (s : State) : (s.takeResponse).trace = s.trace := rfl
@[simp] theorem State.takeResponse_unspec (s : State) : (s.takeResponse).unspec = s.forget.unspec := rfl

@[simp] theorem State.raiseRead_params (s : State) (a : Nat) : (s.raiseRead a).params = s.params := rfl
@[simp] theorem State.raiseRead_rst (s : State) (a : Nat) : (s.raiseRead a).rst = s.rst := rfl
@[simp] theorem State.raiseRead_busy (s : State) (a : Nat) : (s.raiseRead a).busy = s.busy := rfl
@[simp] theorem State.raiseRead_op (s : State) (a : Nat) : (s.raiseRead a).op = s.op := rfl
@[simp] theorem State.raiseRead_k (s : State) (a : Nat) : (s.raiseRead a).k = s.k := rfl
@[simp] theorem State.raiseRead_rd (s : State) (a : Nat) : (s.raiseRead a).rd = s.rd := rfl
@[simp] theorem State.raiseRead_rspValid (s : State) (a : Nat) : (s.raiseRead a).rspValid = s.rspValid := rfl
@[simp] theorem State.raiseRead_rspStatus (s : State) (a : Nat) : (s.raiseRead a).rspStatus = s.rspStatus := rfl
@[simp] theorem State.raiseRead_rspValue (s : State) (a : Nat) : (s.raiseRead a).rspValue = s.rspValue := rfl
@[simp] theorem State.raiseRead_rspNbytes (s : State) (a : Nat) : (s.raiseRead a).rspNbytes = s.rspNbytes := rfl
@[simp] theorem State.raiseRead_memReqValid (s : State) (a : Nat) : (s.raiseRead a).memReqValid = true := rfl
@[simp] theorem State.raiseRead_memOutstanding (s : State) (a : Nat) : (s.raiseRead a).memOutstanding = s.memOutstanding := rfl
@[simp] theorem State.raiseRead_memWe (s : State) (a : Nat) : (s.raiseRead a).memWe = false := rfl
@[simp] theorem State.raiseRead_memAddr (s : State) (a : Nat) : (s.raiseRead a).memAddr = a := rfl
@[simp] theorem State.raiseRead_memWdata (s : State) (a : Nat) : (s.raiseRead a).memWdata = s.memWdata := rfl
@[simp] theorem State.raiseRead_mem (s : State) (a : Nat) : (s.raiseRead a).mem = s.mem := rfl
@[simp] theorem State.raiseRead_program (s : State) (a : Nat) : (s.raiseRead a).program = s.program := rfl
@[simp] theorem State.raiseRead_pos (s : State) (a : Nat) : (s.raiseRead a).pos = s.pos := rfl
@[simp] theorem State.raiseRead_taken (s : State) (a : Nat) : (s.raiseRead a).taken = s.taken := rfl
@[simp] theorem State.raiseRead_agenda (s : State) (a : Nat) : (s.raiseRead a).agenda = s.agenda := rfl
@[simp] theorem State.raiseRead_trace (s : State) (a : Nat) : (s.raiseRead a).trace = s.trace := rfl
@[simp] theorem State.raiseRead_unspec (s : State) (a : Nat) : (s.raiseRead a).unspec = s.unspec := rfl

@[simp] theorem State.raiseWrite_params (s : State) (a : Nat) (v : Byte) : (s.raiseWrite a v).params = s.params := rfl
@[simp] theorem State.raiseWrite_rst (s : State) (a : Nat) (v : Byte) : (s.raiseWrite a v).rst = s.rst := rfl
@[simp] theorem State.raiseWrite_busy (s : State) (a : Nat) (v : Byte) : (s.raiseWrite a v).busy = s.busy := rfl
@[simp] theorem State.raiseWrite_op (s : State) (a : Nat) (v : Byte) : (s.raiseWrite a v).op = s.op := rfl
@[simp] theorem State.raiseWrite_k (s : State) (a : Nat) (v : Byte) : (s.raiseWrite a v).k = s.k := rfl
@[simp] theorem State.raiseWrite_rd (s : State) (a : Nat) (v : Byte) : (s.raiseWrite a v).rd = s.rd := rfl
@[simp] theorem State.raiseWrite_rspValid (s : State) (a : Nat) (v : Byte) : (s.raiseWrite a v).rspValid = s.rspValid := rfl
@[simp] theorem State.raiseWrite_rspStatus (s : State) (a : Nat) (v : Byte) : (s.raiseWrite a v).rspStatus = s.rspStatus := rfl
@[simp] theorem State.raiseWrite_rspValue (s : State) (a : Nat) (v : Byte) : (s.raiseWrite a v).rspValue = s.rspValue := rfl
@[simp] theorem State.raiseWrite_rspNbytes (s : State) (a : Nat) (v : Byte) : (s.raiseWrite a v).rspNbytes = s.rspNbytes := rfl
@[simp] theorem State.raiseWrite_memReqValid (s : State) (a : Nat) (v : Byte) : (s.raiseWrite a v).memReqValid = true := rfl
@[simp] theorem State.raiseWrite_memOutstanding (s : State) (a : Nat) (v : Byte) : (s.raiseWrite a v).memOutstanding = s.memOutstanding := rfl
@[simp] theorem State.raiseWrite_memWe (s : State) (a : Nat) (v : Byte) : (s.raiseWrite a v).memWe = true := rfl
@[simp] theorem State.raiseWrite_memAddr (s : State) (a : Nat) (v : Byte) : (s.raiseWrite a v).memAddr = a := rfl
@[simp] theorem State.raiseWrite_memWdata (s : State) (a : Nat) (v : Byte) : (s.raiseWrite a v).memWdata = v := rfl
@[simp] theorem State.raiseWrite_mem (s : State) (a : Nat) (v : Byte) : (s.raiseWrite a v).mem = s.mem := rfl
@[simp] theorem State.raiseWrite_program (s : State) (a : Nat) (v : Byte) : (s.raiseWrite a v).program = s.program := rfl
@[simp] theorem State.raiseWrite_pos (s : State) (a : Nat) (v : Byte) : (s.raiseWrite a v).pos = s.pos := rfl
@[simp] theorem State.raiseWrite_taken (s : State) (a : Nat) (v : Byte) : (s.raiseWrite a v).taken = s.taken := rfl
@[simp] theorem State.raiseWrite_agenda (s : State) (a : Nat) (v : Byte) : (s.raiseWrite a v).agenda = s.agenda := rfl
@[simp] theorem State.raiseWrite_trace (s : State) (a : Nat) (v : Byte) : (s.raiseWrite a v).trace = s.trace := rfl
@[simp] theorem State.raiseWrite_unspec (s : State) (a : Nat) (v : Byte) : (s.raiseWrite a v).unspec = s.unspec := rfl

@[simp] theorem State.acceptRequest_params (s : State) : (s.acceptRequest).params = s.params := rfl
@[simp] theorem State.acceptRequest_rst (s : State) : (s.acceptRequest).rst = s.rst := rfl
@[simp] theorem State.acceptRequest_busy (s : State) : (s.acceptRequest).busy = s.busy := rfl
@[simp] theorem State.acceptRequest_op (s : State) : (s.acceptRequest).op = s.op := rfl
@[simp] theorem State.acceptRequest_k (s : State) : (s.acceptRequest).k = s.k := rfl
@[simp] theorem State.acceptRequest_rd (s : State) : (s.acceptRequest).rd = s.rd := rfl
@[simp] theorem State.acceptRequest_rspValid (s : State) : (s.acceptRequest).rspValid = s.rspValid := rfl
@[simp] theorem State.acceptRequest_rspStatus (s : State) : (s.acceptRequest).rspStatus = s.rspStatus := rfl
@[simp] theorem State.acceptRequest_rspValue (s : State) : (s.acceptRequest).rspValue = s.rspValue := rfl
@[simp] theorem State.acceptRequest_rspNbytes (s : State) : (s.acceptRequest).rspNbytes = s.rspNbytes := rfl
@[simp] theorem State.acceptRequest_memReqValid (s : State) : (s.acceptRequest).memReqValid = false := rfl
@[simp] theorem State.acceptRequest_memOutstanding (s : State) : (s.acceptRequest).memOutstanding = true := rfl
@[simp] theorem State.acceptRequest_memWe (s : State) : (s.acceptRequest).memWe = s.memWe := rfl
@[simp] theorem State.acceptRequest_memAddr (s : State) : (s.acceptRequest).memAddr = s.memAddr := rfl
@[simp] theorem State.acceptRequest_memWdata (s : State) : (s.acceptRequest).memWdata = s.memWdata := rfl
@[simp] theorem State.acceptRequest_mem (s : State) : (s.acceptRequest).mem = s.mem := rfl
@[simp] theorem State.acceptRequest_program (s : State) : (s.acceptRequest).program = s.program := rfl
@[simp] theorem State.acceptRequest_pos (s : State) : (s.acceptRequest).pos = s.pos := rfl
@[simp] theorem State.acceptRequest_taken (s : State) : (s.acceptRequest).taken = s.taken := rfl
@[simp] theorem State.acceptRequest_agenda (s : State) : (s.acceptRequest).agenda = s.agenda := rfl
@[simp] theorem State.acceptRequest_trace (s : State) : (s.acceptRequest).trace = s.trace := rfl
@[simp] theorem State.acceptRequest_unspec (s : State) : (s.acceptRequest).unspec = s.unspec := rfl

@[simp] theorem State.completeRead_params (s : State) (b : Byte) : (s.completeRead b).params = s.params := rfl
@[simp] theorem State.completeRead_rst (s : State) (b : Byte) : (s.completeRead b).rst = s.rst := rfl
@[simp] theorem State.completeRead_busy (s : State) (b : Byte) : (s.completeRead b).busy = s.busy := rfl
@[simp] theorem State.completeRead_op (s : State) (b : Byte) : (s.completeRead b).op = s.op := rfl
@[simp] theorem State.completeRead_k (s : State) (b : Byte) : (s.completeRead b).k = s.k + 1 := rfl
@[simp] theorem State.completeRead_rd (s : State) (b : Byte) : (s.completeRead b).rd = setByte s.rd s.k.toNat b := rfl
@[simp] theorem State.completeRead_rspValid (s : State) (b : Byte) : (s.completeRead b).rspValid = s.rspValid := rfl
@[simp] theorem State.completeRead_rspStatus (s : State) (b : Byte) : (s.completeRead b).rspStatus = s.rspStatus := rfl
@[simp] theorem State.completeRead_rspValue (s : State) (b : Byte) : (s.completeRead b).rspValue = s.rspValue := rfl
@[simp] theorem State.completeRead_rspNbytes (s : State) (b : Byte) : (s.completeRead b).rspNbytes = s.rspNbytes := rfl
@[simp] theorem State.completeRead_memReqValid (s : State) (b : Byte) : (s.completeRead b).memReqValid = s.memReqValid := rfl
@[simp] theorem State.completeRead_memOutstanding (s : State) (b : Byte) : (s.completeRead b).memOutstanding = false := rfl
@[simp] theorem State.completeRead_memWe (s : State) (b : Byte) : (s.completeRead b).memWe = s.memWe := rfl
@[simp] theorem State.completeRead_memAddr (s : State) (b : Byte) : (s.completeRead b).memAddr = s.memAddr := rfl
@[simp] theorem State.completeRead_memWdata (s : State) (b : Byte) : (s.completeRead b).memWdata = s.memWdata := rfl
@[simp] theorem State.completeRead_mem (s : State) (b : Byte) : (s.completeRead b).mem = s.mem := rfl
@[simp] theorem State.completeRead_program (s : State) (b : Byte) : (s.completeRead b).program = s.program := rfl
@[simp] theorem State.completeRead_pos (s : State) (b : Byte) : (s.completeRead b).pos = s.pos := rfl
@[simp] theorem State.completeRead_taken (s : State) (b : Byte) : (s.completeRead b).taken = s.taken := rfl
@[simp] theorem State.completeRead_agenda (s : State) (b : Byte) : (s.completeRead b).agenda = s.agenda := rfl
@[simp] theorem State.completeRead_trace (s : State) (b : Byte) : (s.completeRead b).trace = s.trace ++ [.read s.memAddr] := rfl
@[simp] theorem State.completeRead_unspec (s : State) (b : Byte) : (s.completeRead b).unspec = s.unspec := rfl

@[simp] theorem State.completeWrite_params (s : State) : (s.completeWrite).params = s.params := rfl
@[simp] theorem State.completeWrite_rst (s : State) : (s.completeWrite).rst = s.rst := rfl
@[simp] theorem State.completeWrite_busy (s : State) : (s.completeWrite).busy = s.busy := rfl
@[simp] theorem State.completeWrite_op (s : State) : (s.completeWrite).op = s.op := rfl
@[simp] theorem State.completeWrite_k (s : State) : (s.completeWrite).k = s.k + 1 := rfl
@[simp] theorem State.completeWrite_rd (s : State) : (s.completeWrite).rd = s.rd := rfl
@[simp] theorem State.completeWrite_rspValid (s : State) : (s.completeWrite).rspValid = s.rspValid := rfl
@[simp] theorem State.completeWrite_rspStatus (s : State) : (s.completeWrite).rspStatus = s.rspStatus := rfl
@[simp] theorem State.completeWrite_rspValue (s : State) : (s.completeWrite).rspValue = s.rspValue := rfl
@[simp] theorem State.completeWrite_rspNbytes (s : State) : (s.completeWrite).rspNbytes = s.rspNbytes := rfl
@[simp] theorem State.completeWrite_memReqValid (s : State) : (s.completeWrite).memReqValid = s.memReqValid := rfl
@[simp] theorem State.completeWrite_memOutstanding (s : State) : (s.completeWrite).memOutstanding = false := rfl
@[simp] theorem State.completeWrite_memWe (s : State) : (s.completeWrite).memWe = s.memWe := rfl
@[simp] theorem State.completeWrite_memAddr (s : State) : (s.completeWrite).memAddr = s.memAddr := rfl
@[simp] theorem State.completeWrite_memWdata (s : State) : (s.completeWrite).memWdata = s.memWdata := rfl
@[simp] theorem State.completeWrite_mem (s : State) : (s.completeWrite).mem = s.mem.write s.memAddr s.memWdata := rfl
@[simp] theorem State.completeWrite_program (s : State) : (s.completeWrite).program = s.program := rfl
@[simp] theorem State.completeWrite_pos (s : State) : (s.completeWrite).pos = s.pos := rfl
@[simp] theorem State.completeWrite_taken (s : State) : (s.completeWrite).taken = s.taken := rfl
@[simp] theorem State.completeWrite_agenda (s : State) : (s.completeWrite).agenda = s.agenda := rfl
@[simp] theorem State.completeWrite_trace (s : State) : (s.completeWrite).trace = s.trace ++ [.write s.memAddr s.memWdata] := rfl
@[simp] theorem State.completeWrite_unspec (s : State) : (s.completeWrite).unspec = s.unspec := rfl

@[simp] theorem State.agentWrite_params (s : State) (a : Nat) (v : Byte) : (s.agentWrite a v).params = s.params := rfl
@[simp] theorem State.agentWrite_rst (s : State) (a : Nat) (v : Byte) : (s.agentWrite a v).rst = s.rst := rfl
@[simp] theorem State.agentWrite_busy (s : State) (a : Nat) (v : Byte) : (s.agentWrite a v).busy = s.busy := rfl
@[simp] theorem State.agentWrite_op (s : State) (a : Nat) (v : Byte) : (s.agentWrite a v).op = s.op := rfl
@[simp] theorem State.agentWrite_k (s : State) (a : Nat) (v : Byte) : (s.agentWrite a v).k = s.k := rfl
@[simp] theorem State.agentWrite_rd (s : State) (a : Nat) (v : Byte) : (s.agentWrite a v).rd = s.rd := rfl
@[simp] theorem State.agentWrite_rspValid (s : State) (a : Nat) (v : Byte) : (s.agentWrite a v).rspValid = s.rspValid := rfl
@[simp] theorem State.agentWrite_rspStatus (s : State) (a : Nat) (v : Byte) : (s.agentWrite a v).rspStatus = s.rspStatus := rfl
@[simp] theorem State.agentWrite_rspValue (s : State) (a : Nat) (v : Byte) : (s.agentWrite a v).rspValue = s.rspValue := rfl
@[simp] theorem State.agentWrite_rspNbytes (s : State) (a : Nat) (v : Byte) : (s.agentWrite a v).rspNbytes = s.rspNbytes := rfl
@[simp] theorem State.agentWrite_memReqValid (s : State) (a : Nat) (v : Byte) : (s.agentWrite a v).memReqValid = s.memReqValid := rfl
@[simp] theorem State.agentWrite_memOutstanding (s : State) (a : Nat) (v : Byte) : (s.agentWrite a v).memOutstanding = s.memOutstanding := rfl
@[simp] theorem State.agentWrite_memWe (s : State) (a : Nat) (v : Byte) : (s.agentWrite a v).memWe = s.memWe := rfl
@[simp] theorem State.agentWrite_memAddr (s : State) (a : Nat) (v : Byte) : (s.agentWrite a v).memAddr = s.memAddr := rfl
@[simp] theorem State.agentWrite_memWdata (s : State) (a : Nat) (v : Byte) : (s.agentWrite a v).memWdata = s.memWdata := rfl
@[simp] theorem State.agentWrite_mem (s : State) (a : Nat) (v : Byte) : (s.agentWrite a v).mem = s.mem.write a v := rfl
@[simp] theorem State.agentWrite_program (s : State) (a : Nat) (v : Byte) : (s.agentWrite a v).program = s.program := rfl
@[simp] theorem State.agentWrite_pos (s : State) (a : Nat) (v : Byte) : (s.agentWrite a v).pos = s.pos := rfl
@[simp] theorem State.agentWrite_taken (s : State) (a : Nat) (v : Byte) : (s.agentWrite a v).taken = s.taken := rfl
@[simp] theorem State.agentWrite_agenda (s : State) (a : Nat) (v : Byte) : (s.agentWrite a v).agenda = s.agenda := rfl
@[simp] theorem State.agentWrite_trace (s : State) (a : Nat) (v : Byte) : (s.agentWrite a v).trace = s.trace := rfl
@[simp] theorem State.agentWrite_unspec (s : State) (a : Nat) (v : Byte) : (s.agentWrite a v).unspec = s.unspec := rfl

@[simp] theorem State.resetBlock_params (s : State) : (s.resetBlock).params = s.params := rfl
@[simp] theorem State.resetBlock_rst (s : State) : (s.resetBlock).rst = true := rfl
@[simp] theorem State.resetBlock_busy (s : State) : (s.resetBlock).busy = false := rfl
@[simp] theorem State.resetBlock_op (s : State) : (s.resetBlock).op = s.forget.op := rfl
@[simp] theorem State.resetBlock_k (s : State) : (s.resetBlock).k = s.forget.k := rfl
@[simp] theorem State.resetBlock_rd (s : State) : (s.resetBlock).rd = s.forget.rd := rfl
@[simp] theorem State.resetBlock_rspValid (s : State) : (s.resetBlock).rspValid = false := rfl
@[simp] theorem State.resetBlock_rspStatus (s : State) : (s.resetBlock).rspStatus = s.forget.rspStatus := rfl
@[simp] theorem State.resetBlock_rspValue (s : State) : (s.resetBlock).rspValue = s.forget.rspValue := rfl
@[simp] theorem State.resetBlock_rspNbytes (s : State) : (s.resetBlock).rspNbytes = s.forget.rspNbytes := rfl
@[simp] theorem State.resetBlock_memReqValid (s : State) : (s.resetBlock).memReqValid = false := rfl
@[simp] theorem State.resetBlock_memOutstanding (s : State) : (s.resetBlock).memOutstanding = false := rfl
@[simp] theorem State.resetBlock_memWe (s : State) : (s.resetBlock).memWe = false := rfl
@[simp] theorem State.resetBlock_memAddr (s : State) : (s.resetBlock).memAddr = s.forget.memAddr := rfl
@[simp] theorem State.resetBlock_memWdata (s : State) : (s.resetBlock).memWdata = s.forget.memWdata := rfl
@[simp] theorem State.resetBlock_mem (s : State) : (s.resetBlock).mem = s.mem := rfl
@[simp] theorem State.resetBlock_program (s : State) : (s.resetBlock).program = s.program := rfl
@[simp] theorem State.resetBlock_pos (s : State) : (s.resetBlock).pos = s.pos := rfl
@[simp] theorem State.resetBlock_taken (s : State) : (s.resetBlock).taken = s.taken := rfl
@[simp] theorem State.resetBlock_agenda (s : State) : (s.resetBlock).agenda = s.agenda := rfl
@[simp] theorem State.resetBlock_trace (s : State) : (s.resetBlock).trace = s.trace := rfl
@[simp] theorem State.resetBlock_unspec (s : State) : (s.resetBlock).unspec = s.forget.unspec := rfl

@[simp] theorem State.dropReset_params (s : State) : (s.dropReset).params = s.params := rfl
@[simp] theorem State.dropReset_rst (s : State) : (s.dropReset).rst = false := rfl
@[simp] theorem State.dropReset_busy (s : State) : (s.dropReset).busy = s.busy := rfl
@[simp] theorem State.dropReset_op (s : State) : (s.dropReset).op = s.op := rfl
@[simp] theorem State.dropReset_k (s : State) : (s.dropReset).k = s.k := rfl
@[simp] theorem State.dropReset_rd (s : State) : (s.dropReset).rd = s.rd := rfl
@[simp] theorem State.dropReset_rspValid (s : State) : (s.dropReset).rspValid = s.rspValid := rfl
@[simp] theorem State.dropReset_rspStatus (s : State) : (s.dropReset).rspStatus = s.rspStatus := rfl
@[simp] theorem State.dropReset_rspValue (s : State) : (s.dropReset).rspValue = s.rspValue := rfl
@[simp] theorem State.dropReset_rspNbytes (s : State) : (s.dropReset).rspNbytes = s.rspNbytes := rfl
@[simp] theorem State.dropReset_memReqValid (s : State) : (s.dropReset).memReqValid = s.memReqValid := rfl
@[simp] theorem State.dropReset_memOutstanding (s : State) : (s.dropReset).memOutstanding = s.memOutstanding := rfl
@[simp] theorem State.dropReset_memWe (s : State) : (s.dropReset).memWe = s.memWe := rfl
@[simp] theorem State.dropReset_memAddr (s : State) : (s.dropReset).memAddr = s.memAddr := rfl
@[simp] theorem State.dropReset_memWdata (s : State) : (s.dropReset).memWdata = s.memWdata := rfl
@[simp] theorem State.dropReset_mem (s : State) : (s.dropReset).mem = s.mem := rfl
@[simp] theorem State.dropReset_program (s : State) : (s.dropReset).program = s.program := rfl
@[simp] theorem State.dropReset_pos (s : State) : (s.dropReset).pos = s.pos := rfl
@[simp] theorem State.dropReset_taken (s : State) : (s.dropReset).taken = s.taken := rfl
@[simp] theorem State.dropReset_agenda (s : State) : (s.dropReset).agenda = s.agenda := rfl
@[simp] theorem State.dropReset_trace (s : State) : (s.dropReset).trace = s.trace := rfl
@[simp] theorem State.dropReset_unspec (s : State) : (s.dropReset).unspec = s.unspec := rfl

@[simp] theorem State.respond_response (s : State) (r : Response) : (s.respond r).response = r := rfl

theorem State.raise_eq_respond (s : State) (st : Status) : s.raise st = s.respond (failResponse st) := rfl

@[simp] theorem okResponse_status (v : BitVec 32) (n : BitVec 3) : (okResponse v n).status = .ok := rfl
@[simp] theorem okResponse_value (v : BitVec 32) (n : BitVec 3) : (okResponse v n).value = v := rfl
@[simp] theorem okResponse_nbytes (v : BitVec 32) (n : BitVec 3) : (okResponse v n).nbytes = n := rfl
@[simp] theorem failResponse_status (st : Status) : (failResponse st).status = st := rfl
@[simp] theorem failResponse_value (st : Status) : (failResponse st).value = 0 := rfl
@[simp] theorem failResponse_nbytes (st : Status) : (failResponse st).nbytes = 0 := rfl

@[simp] theorem ofBus_ok (s : State) : ofBus (.ok s) = .next s := rfl
@[simp] theorem ofBus_error (f : Fault) : ofBus (.error f) = .fault f := rfl

/-- A bus outcome is a next state exactly when the accesses succeed. -/
theorem ofBus_eq_next (x : Except Fault State) (t : State) : ofBus x = .next t ↔ x = .ok t := by
  cases x <;> simp [ofBus]

end Sys2Proof.Machine
end

