-- ==== Sys2Proof/Laws/Bus.lean ====
section
/-! SUPPORT. One spec lemma per operation of the memory port: when the addresses exist, a read or a write succeeds, and
the state it leaves is `afterRead`, `afterWrite` and their iterations, whose fields are listed here. -/

namespace Sys2Proof.Machine

/-- The state a completed read leaves. -/
def State.afterRead (s : State) (a : Nat) : State :=
  ((s.raiseRead a).acceptRequest).completeRead (s.mem.read a)

/-- The state a completed write leaves. -/
def State.afterWrite (s : State) (a : Nat) (v : Byte) : State :=
  ((s.raiseWrite a v).acceptRequest).completeWrite

/-- The state after reads of `n` ascending addresses. -/
def State.afterReads : Nat → Nat → State → State
  | 0, _, s => s
  | n + 1, a, s => State.afterReads n (a + 1) (s.afterRead a)

/-- The state after writes of the bytes at ascending addresses. -/
def State.afterWrites : List Byte → Nat → State → State
  | [], _, s => s
  | v :: vs, a, s => State.afterWrites vs (a + 1) (s.afterWrite a v)

theorem busRead_eq {s : State} {a : Nat} (h : a < 2 ^ s.params.addrw) :
    busRead a s = .ok (s.mem.read a, s.afterRead a) := by
  simp [busRead, completeRequest, addrExists, h, State.afterRead, bind, Except.bind, pure, Except.pure]

theorem busWrite_eq {s : State} {a : Nat} {v : Byte} (h : a < 2 ^ s.params.addrw) :
    busWrite a v s = .ok (s.afterWrite a v) := by
  simp [busWrite, completeRequest, addrExists, h, State.afterWrite]

@[simp] theorem State.afterRead_params (s : State) (a : Nat) :
    (s.afterRead a).params = s.params := rfl
@[simp] theorem State.afterRead_rst (s : State) (a : Nat) :
    (s.afterRead a).rst = s.rst := rfl
@[simp] theorem State.afterRead_busy (s : State) (a : Nat) :
    (s.afterRead a).busy = s.busy := rfl
@[simp] theorem State.afterRead_op (s : State) (a : Nat) :
    (s.afterRead a).op = s.op := rfl
@[simp] theorem State.afterRead_k (s : State) (a : Nat) :
    (s.afterRead a).k = s.k + 1 := rfl
@[simp] theorem State.afterRead_rd (s : State) (a : Nat) :
    (s.afterRead a).rd = setByte s.rd s.k.toNat (s.mem.read a) := rfl
@[simp] theorem State.afterRead_rspValid (s : State) (a : Nat) :
    (s.afterRead a).rspValid = s.rspValid := rfl
@[simp] theorem State.afterRead_rspStatus (s : State) (a : Nat) :
    (s.afterRead a).rspStatus = s.rspStatus := rfl
@[simp] theorem State.afterRead_rspValue (s : State) (a : Nat) :
    (s.afterRead a).rspValue = s.rspValue := rfl
@[simp] theorem State.afterRead_rspNbytes (s : State) (a : Nat) :
    (s.afterRead a).rspNbytes = s.rspNbytes := rfl
@[simp] theorem State.afterRead_memReqValid (s : State) (a : Nat) :
    (s.afterRead a).memReqValid = false := rfl
@[simp] theorem State.afterRead_memOutstanding (s : State) (a : Nat) :
    (s.afterRead a).memOutstanding = false := rfl
@[simp] theorem State.afterRead_memWe (s : State) (a : Nat) :
    (s.afterRead a).memWe = false := rfl
@[simp] theorem State.afterRead_memAddr (s : State) (a : Nat) :
    (s.afterRead a).memAddr = a := rfl
@[simp] theorem State.afterRead_memWdata (s : State) (a : Nat) :
    (s.afterRead a).memWdata = s.memWdata := rfl
@[simp] theorem State.afterRead_mem (s : State) (a : Nat) :
    (s.afterRead a).mem = s.mem := rfl
@[simp] theorem State.afterRead_program (s : State) (a : Nat) :
    (s.afterRead a).program = s.program := rfl
@[simp] theorem State.afterRead_pos (s : State) (a : Nat) :
    (s.afterRead a).pos = s.pos := rfl
@[simp] theorem State.afterRead_taken (s : State) (a : Nat) :
    (s.afterRead a).taken = s.taken := rfl
@[simp] theorem State.afterRead_agenda (s : State) (a : Nat) :
    (s.afterRead a).agenda = s.agenda := rfl
@[simp] theorem State.afterRead_trace (s : State) (a : Nat) :
    (s.afterRead a).trace = s.trace ++ [.read a] := rfl
@[simp] theorem State.afterRead_unspec (s : State) (a : Nat) :
    (s.afterRead a).unspec = s.unspec := rfl
@[simp] theorem State.afterRead_response (s : State) (a : Nat) : (s.afterRead a).response = s.response := rfl

@[simp] theorem State.afterWrite_params (s : State) (a : Nat) (v : Byte) :
    (s.afterWrite a v).params = s.params := rfl
@[simp] theorem State.afterWrite_rst (s : State) (a : Nat) (v : Byte) :
    (s.afterWrite a v).rst = s.rst := rfl
@[simp] theorem State.afterWrite_busy (s : State) (a : Nat) (v : Byte) :
    (s.afterWrite a v).busy = s.busy := rfl
@[simp] theorem State.afterWrite_op (s : State) (a : Nat) (v : Byte) :
    (s.afterWrite a v).op = s.op := rfl
@[simp] theorem State.afterWrite_k (s : State) (a : Nat) (v : Byte) :
    (s.afterWrite a v).k = s.k + 1 := rfl
@[simp] theorem State.afterWrite_rd (s : State) (a : Nat) (v : Byte) :
    (s.afterWrite a v).rd = s.rd := rfl
@[simp] theorem State.afterWrite_rspValid (s : State) (a : Nat) (v : Byte) :
    (s.afterWrite a v).rspValid = s.rspValid := rfl
@[simp] theorem State.afterWrite_rspStatus (s : State) (a : Nat) (v : Byte) :
    (s.afterWrite a v).rspStatus = s.rspStatus := rfl
@[simp] theorem State.afterWrite_rspValue (s : State) (a : Nat) (v : Byte) :
    (s.afterWrite a v).rspValue = s.rspValue := rfl
@[simp] theorem State.afterWrite_rspNbytes (s : State) (a : Nat) (v : Byte) :
    (s.afterWrite a v).rspNbytes = s.rspNbytes := rfl
@[simp] theorem State.afterWrite_memReqValid (s : State) (a : Nat) (v : Byte) :
    (s.afterWrite a v).memReqValid = false := rfl
@[simp] theorem State.afterWrite_memOutstanding (s : State) (a : Nat) (v : Byte) :
    (s.afterWrite a v).memOutstanding = false := rfl
@[simp] theorem State.afterWrite_memWe (s : State) (a : Nat) (v : Byte) :
    (s.afterWrite a v).memWe = true := rfl
@[simp] theorem State.afterWrite_memAddr (s : State) (a : Nat) (v : Byte) :
    (s.afterWrite a v).memAddr = a := rfl
@[simp] theorem State.afterWrite_memWdata (s : State) (a : Nat) (v : Byte) :
    (s.afterWrite a v).memWdata = v := rfl
@[simp] theorem State.afterWrite_mem (s : State) (a : Nat) (v : Byte) :
    (s.afterWrite a v).mem = s.mem.write a v := rfl
@[simp] theorem State.afterWrite_program (s : State) (a : Nat) (v : Byte) :
    (s.afterWrite a v).program = s.program := rfl
@[simp] theorem State.afterWrite_pos (s : State) (a : Nat) (v : Byte) :
    (s.afterWrite a v).pos = s.pos := rfl
@[simp] theorem State.afterWrite_taken (s : State) (a : Nat) (v : Byte) :
    (s.afterWrite a v).taken = s.taken := rfl
@[simp] theorem State.afterWrite_agenda (s : State) (a : Nat) (v : Byte) :
    (s.afterWrite a v).agenda = s.agenda := rfl
@[simp] theorem State.afterWrite_trace (s : State) (a : Nat) (v : Byte) :
    (s.afterWrite a v).trace = s.trace ++ [.write a v] := rfl
@[simp] theorem State.afterWrite_unspec (s : State) (a : Nat) (v : Byte) :
    (s.afterWrite a v).unspec = s.unspec := rfl
@[simp] theorem State.afterWrite_response (s : State) (a : Nat) (v : Byte) : (s.afterWrite a v).response = s.response := rfl

theorem busReads_eq {n a : Nat} {s : State} (h : ∀ j < n, a + j < 2 ^ s.params.addrw) :
    busReads n a s = .ok ((List.range n).map (fun j => s.mem.read (a + j)), s.afterReads n a) := by
  induction n generalizing a s with
  | zero => rfl
  | succ n ih =>
    have h0 : a < 2 ^ s.params.addrw := by simpa using h 0 (by omega)
    have h1 : ∀ j < n, a + 1 + j < 2 ^ (s.afterRead a).params.addrw := by
      intro j hj
      have := h (j + 1) (by omega)
      rw [State.afterRead_params]
      omega
    simp [busReads, busRead_eq h0, ih h1, State.afterReads, List.range_succ_eq_map, bind, Except.bind, pure,
      Except.pure, Nat.add_comm, Nat.add_left_comm]

theorem busWrites_eq {vs : List Byte} {a : Nat} {s : State} (h : ∀ j < vs.length, a + j < 2 ^ s.params.addrw) :
    busWrites vs a s = .ok (s.afterWrites vs a) := by
  induction vs generalizing a s with
  | nil => rfl
  | cons v vs ih =>
    have h0 : a < 2 ^ s.params.addrw := by simpa using h 0 (by simp)
    have h1 : ∀ j < vs.length, a + 1 + j < 2 ^ (s.afterWrite a v).params.addrw := by
      intro j hj
      have := h (j + 1) (by simpa using hj)
      rw [State.afterWrite_params]
      omega
    simp [busWrites, busWrite_eq h0, ih h1, State.afterWrites, bind, Except.bind]

/-- What reads leave alone: everything but the counter, the latch, the memory port and the trace. -/
theorem State.afterReads_frame (n a : Nat) (s : State) :
    (s.afterReads n a).params = s.params ∧ (s.afterReads n a).rst = s.rst ∧ (s.afterReads n a).busy = s.busy ∧
    (s.afterReads n a).op = s.op ∧ (s.afterReads n a).rspValid = s.rspValid ∧
    (s.afterReads n a).response = s.response ∧ (s.afterReads n a).memWdata = s.memWdata ∧
    (s.afterReads n a).mem = s.mem ∧ (s.afterReads n a).program = s.program ∧ (s.afterReads n a).pos = s.pos ∧
    (s.afterReads n a).taken = s.taken ∧ (s.afterReads n a).agenda = s.agenda ∧
    (s.afterReads n a).unspec = s.unspec := by
  induction n generalizing a s with
  | zero => simp [State.afterReads]
  | succ n ih => exact ih (a + 1) (s.afterRead a)

/-- What writes leave alone: everything but the counter, the memory port, memory and the trace. -/
theorem State.afterWrites_frame (vs : List Byte) (a : Nat) (s : State) :
    (s.afterWrites vs a).params = s.params ∧ (s.afterWrites vs a).rst = s.rst ∧ (s.afterWrites vs a).busy = s.busy ∧
    (s.afterWrites vs a).op = s.op ∧ (s.afterWrites vs a).rd = s.rd ∧ (s.afterWrites vs a).rspValid = s.rspValid ∧
    (s.afterWrites vs a).response = s.response ∧ (s.afterWrites vs a).program = s.program ∧
    (s.afterWrites vs a).pos = s.pos ∧ (s.afterWrites vs a).taken = s.taken ∧
    (s.afterWrites vs a).agenda = s.agenda ∧ (s.afterWrites vs a).unspec = s.unspec := by
  induction vs generalizing a s with
  | nil => simp [State.afterWrites]
  | cons v vs ih => exact ih (a + 1) (s.afterWrite a v)

theorem State.afterReads_trace (n a : Nat) (s : State) :
    (s.afterReads n a).trace = s.trace ++ (List.range n).map (fun j => .read (a + j)) := by
  induction n generalizing a s with
  | zero => simp [State.afterReads]
  | succ n ih =>
    simp [State.afterReads, ih, List.range_succ_eq_map, Nat.add_comm, Nat.add_left_comm, Function.comp_def]

theorem State.afterReads_k (n a : Nat) (s : State) : (s.afterReads n a).k = s.k + BitVec.ofNat 3 n := by
  induction n generalizing a s with
  | zero => simp [State.afterReads]
  | succ n ih =>
    simp only [State.afterReads, ih, State.afterRead_k]
    apply BitVec.eq_of_toNat_eq
    simp [BitVec.toNat_add, Nat.add_assoc, Nat.add_comm n 1]

/-- The last request of a run of reads stays on the port's registers. -/
theorem State.afterReads_port (n a : Nat) (s : State) :
    (s.afterReads (n + 1) a).memReqValid = false ∧ (s.afterReads (n + 1) a).memOutstanding = false ∧
    (s.afterReads (n + 1) a).memWe = false ∧ (s.afterReads (n + 1) a).memAddr = a + n := by
  induction n generalizing a s with
  | zero => exact ⟨rfl, rfl, rfl, rfl⟩
  | succ n ih =>
    have := ih (a + 1) (s.afterRead a)
    rw [show a + (n + 1) = a + 1 + n by omega]
    exact this

/-- The last request of a run of writes stays on the port's registers. -/
theorem State.afterWrites_port (vs : List Byte) (v : Byte) (a : Nat) (s : State) :
    (s.afterWrites (vs ++ [v]) a).memReqValid = false ∧ (s.afterWrites (vs ++ [v]) a).memOutstanding = false ∧
    (s.afterWrites (vs ++ [v]) a).memWe = true ∧ (s.afterWrites (vs ++ [v]) a).memAddr = a + vs.length ∧
    (s.afterWrites (vs ++ [v]) a).memWdata = v := by
  induction vs generalizing a s with
  | nil => exact ⟨rfl, rfl, rfl, rfl, rfl⟩
  | cons u us ih =>
    rw [show a + (u :: us).length = a + 1 + us.length by simp; omega]
    exact ih (a + 1) (s.afterWrite a u)

/-- The lanes of the read latch after reads: the bytes read, in order; lower lanes stay. -/
theorem State.afterReads_rd (n a : Nat) (s : State) (hk : s.k.toNat + n ≤ 4) (i : Nat) :
    byteAt (s.afterReads n a).rd i =
      if s.k.toNat ≤ i ∧ i < s.k.toNat + n then s.mem.read (a + (i - s.k.toNat)) else byteAt s.rd i := by
  induction n generalizing a s with
  | zero =>
    have : ¬ (s.k.toNat ≤ i ∧ i < s.k.toNat) := by omega
    simp [State.afterReads, this]
  | succ n ih =>
    have hk1 : (s.afterRead a).k.toNat = s.k.toNat + 1 := by
      simp only [State.afterRead_k, BitVec.toNat_add]
      simp; omega
    have := ih (a + 1) (s.afterRead a) (by omega)
    rw [State.afterReads, this, hk1, State.afterRead_rd, State.afterRead_mem, byteAt_setByte _ _ (by omega)]
    by_cases h1 : i = s.k.toNat
    · subst h1
      simp
    · by_cases h2 : s.k.toNat + 1 ≤ i ∧ i < s.k.toNat + 1 + n
      · rw [if_pos h2, if_pos (by omega), show a + 1 + (i - (s.k.toNat + 1)) = a + (i - s.k.toNat) by omega]
      · rw [if_neg h2, if_neg h1, if_neg (by omega)]

theorem State.afterWrites_trace (vs : List Byte) (a : Nat) (s : State) :
    (s.afterWrites vs a).trace =
      s.trace ++ (List.range vs.length).map (fun j => .write (a + j) (vs[j]?.getD 0)) := by
  induction vs generalizing a s with
  | nil => simp [State.afterWrites]
  | cons v vs ih =>
    rw [List.length_cons, List.range_succ_eq_map]
    simp [State.afterWrites, ih, Nat.add_assoc, Nat.add_comm 1, Function.comp_def]

theorem State.afterWrites_k (vs : List Byte) (a : Nat) (s : State) :
    (s.afterWrites vs a).k = s.k + BitVec.ofNat 3 vs.length := by
  induction vs generalizing a s with
  | nil => simp [State.afterWrites]
  | cons v vs ih =>
    simp only [State.afterWrites, ih, State.afterWrite_k, List.length_cons]
    apply BitVec.eq_of_toNat_eq
    simp [BitVec.toNat_add, Nat.add_assoc, Nat.add_comm vs.length 1]

/-- Memory after a run of writes: the bytes at their addresses, every other byte as before. -/
theorem State.afterWrites_read (vs : List Byte) (a : Nat) (s : State) (b : Nat) :
    (s.afterWrites vs a).mem.read b =
      if a ≤ b ∧ b < a + vs.length then vs[b - a]?.getD 0 else s.mem.read b := by
  induction vs generalizing a s with
  | nil =>
    have : ¬ (a ≤ b ∧ b < a) := by omega
    simp [State.afterWrites, this]
  | cons v vs ih =>
    rw [State.afterWrites, ih, State.afterWrite_mem, Memory.read_write, List.length_cons]
    by_cases h1 : a = b
    · subst h1
      simp
    · by_cases h2 : a + 1 ≤ b ∧ b < a + 1 + vs.length
      · rw [if_pos h2, if_pos (by omega), show b - a = (b - (a + 1)) + 1 by omega, List.getElem?_cons_succ]
      · rw [if_neg h2, if_neg h1, if_neg (by omega)]

/-- A run of writes keeps the canonical form. -/
theorem State.afterWrites_wf (vs : List Byte) (a : Nat) (s : State) (h : s.mem.wf = true) :
    (s.afterWrites vs a).mem.wf = true := by
  induction vs generalizing a s with
  | nil => exact h
  | cons v vs ih => exact ih (a + 1) (s.afterWrite a v) (Memory.write_wf h a v)

end Sys2Proof.Machine
end

