-- ==== Sys2Proof/Laws/Exec.lean ====
section
/-! SUPPORT. The meanings by shape, and one equation per outcome of LOAD and STORE: illegal descriptor, out of bounds,
and the accesses, which succeed because every address of an in-bounds pixel exists. -/

namespace Sys2Proof.Machine

theorem ofShape_shape (i : Instr) : Instr.ofShape i.shape = i := by cases i <;> rfl

theorem shape_ofShape (sh : Shape) : (Instr.ofShape sh).shape = sh := by
  rcases sh with ⟨op, w, v⟩ | ⟨w, o, i, b, l⟩ | ⟨w, o, i, v, b, l⟩
  · cases op <;> cases w <;> rfl
  · cases o <;> cases w <;> rfl
  · cases o <;> cases w <;> rfl

/-- The meaning of a shape: the shared operation its instructions call. -/
def Shape.exec (s : State) : Shape → Result
  | .value op w v => .next (s.respond (valueResponse op w v))
  | .load w o index base len => load w o index base len s
  | .store w o index v base len => store w o index v base len s

/-- Every arm of `exec` is the shared operation of its instruction's shape. -/
theorem exec_eq_shape (i : Instr) (s : State) : exec i s = Shape.exec s i.shape := by
  cases i <;> rfl

theorem bits_eq_pixelBytes {w : Width} (h : w.isSubByte = false) : bits w = 8 * pixelBytes w := by
  cases w <;> first | rfl | simp [Width.isSubByte] at h

theorem pixelBytes_le (w : Width) : pixelBytes w ≤ 4 := by cases w <;> decide

theorem perByte_mul_bits {w : Width} (h : w.isSubByte = true) : perByte w * bits w = 8 := by
  cases w <;> first | rfl | simp [Width.isSubByte] at h

/-- The bytes of an in-bounds byte-aligned pixel lie inside the buffer (R113). -/
theorem aligned_in_buffer {w : Width} {index len : Nat} (hw : w.isSubByte = false) (hb : inb w index len = true)
    {j : Nat} (hj : j < pixelBytes w) : byteOffset w index + j < len := by
  have h := of_decide_eq_true hb
  rw [bits_eq_pixelBytes hw, show (index + 1) * (8 * pixelBytes w) = 8 * (index * pixelBytes w + pixelBytes w) by ring]
    at h
  unfold byteOffset
  omega

/-- The byte of an in-bounds sub-byte pixel lies inside the buffer (R117). -/
theorem subByte_in_buffer {w : Width} {index len : Nat} (hw : w.isSubByte = true) (hb : inb w index len = true) :
    byteIndex w index < len := by
  have h := of_decide_eq_true hb
  unfold byteIndex
  cases w <;> simp [Width.isSubByte, bits, perByte] at hw h ⊢ <;> omega

theorem aligned_exists {p : Params} {w : Width} {index base len : Nat} (hw : w.isSubByte = false)
    (hd : descOk p base len = true) (hb : inb w index len = true) {j : Nat} (hj : j < pixelBytes w) :
    base + byteOffset w index + j < 2 ^ p.addrw := by
  have h1 := of_decide_eq_true hd
  have h2 := aligned_in_buffer hw hb hj
  omega

theorem subByte_exists {p : Params} {w : Width} {index base len : Nat} (hw : w.isSubByte = true)
    (hd : descOk p base len = true) (hb : inb w index len = true) : base + byteIndex w index < 2 ^ p.addrw := by
  have h1 := of_decide_eq_true hd
  have h2 := subByte_in_buffer hw hb
  omega

theorem load_illegal {w : Width} {o : DataOrder} {index base len : Nat} {s : State}
    (hd : descOk s.params base len = false) :
    load w o index base len s = .next (s.respond (failResponse .illegal)) := by
  simp [load, hd, State.raise]

theorem load_empty {w : Width} {o : DataOrder} {index base len : Nat} {s : State}
    (hd : descOk s.params base len = true) (hb : inb w index len = false) :
    load w o index base len s = .next (s.respond (failResponse .empty)) := by
  simp [load, hd, hb, State.raise]

theorem load_aligned {w : Width} {o : DataOrder} {index base len : Nat} {s : State} (hw : w.isSubByte = false)
    (hd : descOk s.params base len = true) (hb : inb w index len = true) :
    load w o index base len s =
      .next ((s.afterReads (pixelBytes w) (base + byteOffset w index)).respond
        (okResponse (assemble o ((List.range (pixelBytes w)).map
          (fun j => s.mem.read (base + byteOffset w index + j)))) 0)) := by
  have h := busReads_eq (s := s) (n := pixelBytes w) (a := base + byteOffset w index)
    (fun j hj => aligned_exists hw hd hb hj)
  simp [load, hd, hb, hw, loadAligned, h, bind, Except.bind, pure, Except.pure]

theorem load_subByte {w : Width} {o : DataOrder} {index base len : Nat} {s : State} (hw : w.isSubByte = true)
    (hd : descOk s.params base len = true) (hb : inb w index len = true) :
    load w o index base len s =
      .next ((s.afterRead (base + byteIndex w index)).respond
        (okResponse (extractField w (shift w o index) (s.mem.read (base + byteIndex w index))) 0)) := by
  have h := busRead_eq (s := s) (subByte_exists hw hd hb)
  simp [load, hd, hb, hw, loadSubByte, h, bind, Except.bind, pure, Except.pure]

theorem store_illegal {w : Width} {o : DataOrder} {index base len : Nat} {v : BitVec 32} {s : State}
    (hd : descOk s.params base len = false) :
    store w o index v base len s = .next (s.respond (failResponse .illegal)) := by
  simp [store, hd, State.raise]

theorem store_outOfBounds {w : Width} {o : DataOrder} {index base len : Nat} {v : BitVec 32} {s : State}
    (hd : descOk s.params base len = true) (hb : inb w index len = false) :
    store w o index v base len s = .next (s.respond (failResponse .outOfBounds)) := by
  simp [store, hd, hb, State.raise]

theorem store_aligned {w : Width} {o : DataOrder} {index base len : Nat} {v : BitVec 32} {s : State}
    (hw : w.isSubByte = false) (hd : descOk s.params base len = true) (hb : inb w index len = true) :
    store w o index v base len s =
      .next ((s.afterWrites (split (pixelBytes w) o (maskw w v)) (base + byteOffset w index)).respond
        (okResponse 0 0)) := by
  have h := busWrites_eq (s := s) (vs := split (pixelBytes w) o (maskw w v)) (a := base + byteOffset w index)
    (fun j hj => aligned_exists hw hd hb (by rwa [split_length] at hj))
  simp [store, hd, hb, hw, storeAligned, h, bind, Except.bind, pure, Except.pure]

theorem store_subByte {w : Width} {o : DataOrder} {index base len : Nat} {v : BitVec 32} {s : State}
    (hw : w.isSubByte = true) (hd : descOk s.params base len = true) (hb : inb w index len = true) :
    store w o index v base len s =
      .next (((s.afterRead (base + byteIndex w index)).afterWrite (base + byteIndex w index)
        (insertField w (shift w o index) (s.mem.read (base + byteIndex w index)) (maskw w v))).respond
          (okResponse 0 0)) := by
  have he := subByte_exists hw hd hb
  have h := busRead_eq (s := s) he
  have h' := busWrite_eq (s := s.afterRead (base + byteIndex w index))
    (v := insertField w (shift w o index) (s.mem.read (base + byteIndex w index)) (maskw w v))
    (a := base + byteIndex w index) (by simpa using he)
  simp [store, hd, hb, hw, storeSubByte, h, h', bind, Except.bind, pure, Except.pure]

end Sys2Proof.Machine
end

