-- ==== Sys2Proof/Laws/PerInstr.lean ====
section
/-! SUPPORT. The family `TableWord`: each instruction's encoding is the word R69 lists for it, written out here as a
table, and its mnemonic is the opcode table's. -/

namespace Sys2Proof.Laws

/-- The words of R69, written out, with the mnemonics of R71. -/
def tableRow : Instr → BitVec 16 × String
  | .new1 _ => (0x0001, "NEW.1")
  | .new2 _ => (0x0011, "NEW.2")
  | .new4 _ => (0x0021, "NEW.4")
  | .new8 _ => (0x0031, "NEW.8")
  | .new16 _ => (0x0041, "NEW.16")
  | .new24 _ => (0x0051, "NEW.24")
  | .new32 _ => (0x0061, "NEW.32")
  | .fromU32w1 _ => (0x0002, "FROM_U32.1")
  | .fromU32w2 _ => (0x0012, "FROM_U32.2")
  | .fromU32w4 _ => (0x0022, "FROM_U32.4")
  | .fromU32w8 _ => (0x0032, "FROM_U32.8")
  | .fromU32w16 _ => (0x0042, "FROM_U32.16")
  | .fromU32w24 _ => (0x0052, "FROM_U32.24")
  | .fromU32w32 _ => (0x0062, "FROM_U32.32")
  | .intoInner1 _ => (0x0003, "INTO_INNER.1")
  | .intoInner2 _ => (0x0013, "INTO_INNER.2")
  | .intoInner4 _ => (0x0023, "INTO_INNER.4")
  | .intoInner8 _ => (0x0033, "INTO_INNER.8")
  | .intoInner16 _ => (0x0043, "INTO_INNER.16")
  | .intoInner24 _ => (0x0053, "INTO_INNER.24")
  | .intoInner32 _ => (0x0063, "INTO_INNER.32")
  | .load1Lm _ _ _ => (0x0004, "LOAD.1.LM")
  | .load2Lm _ _ _ => (0x0014, "LOAD.2.LM")
  | .load4Lm _ _ _ => (0x0024, "LOAD.4.LM")
  | .load8Lm _ _ _ => (0x0034, "LOAD.8.LM")
  | .load16Lm _ _ _ => (0x0044, "LOAD.16.LM")
  | .load24Lm _ _ _ => (0x0054, "LOAD.24.LM")
  | .load32Lm _ _ _ => (0x0064, "LOAD.32.LM")
  | .load1Bl _ _ _ => (0x0084, "LOAD.1.BL")
  | .load2Bl _ _ _ => (0x0094, "LOAD.2.BL")
  | .load4Bl _ _ _ => (0x00A4, "LOAD.4.BL")
  | .load8Bl _ _ _ => (0x00B4, "LOAD.8.BL")
  | .load16Bl _ _ _ => (0x00C4, "LOAD.16.BL")
  | .load24Bl _ _ _ => (0x00D4, "LOAD.24.BL")
  | .load32Bl _ _ _ => (0x00E4, "LOAD.32.BL")
  | .store1Lm _ _ _ _ => (0x0005, "STORE.1.LM")
  | .store2Lm _ _ _ _ => (0x0015, "STORE.2.LM")
  | .store4Lm _ _ _ _ => (0x0025, "STORE.4.LM")
  | .store8Lm _ _ _ _ => (0x0035, "STORE.8.LM")
  | .store16Lm _ _ _ _ => (0x0045, "STORE.16.LM")
  | .store24Lm _ _ _ _ => (0x0055, "STORE.24.LM")
  | .store32Lm _ _ _ _ => (0x0065, "STORE.32.LM")
  | .store1Bl _ _ _ _ => (0x0085, "STORE.1.BL")
  | .store2Bl _ _ _ _ => (0x0095, "STORE.2.BL")
  | .store4Bl _ _ _ _ => (0x00A5, "STORE.4.BL")
  | .store8Bl _ _ _ _ => (0x00B5, "STORE.8.BL")
  | .store16Bl _ _ _ _ => (0x00C5, "STORE.16.BL")
  | .store24Bl _ _ _ _ => (0x00D5, "STORE.24.BL")
  | .store32Bl _ _ _ _ => (0x00E5, "STORE.32.BL")
  | .toLeBytes1 _ => (0x0006, "TO_LE_BYTES.1")
  | .toLeBytes2 _ => (0x0016, "TO_LE_BYTES.2")
  | .toLeBytes4 _ => (0x0026, "TO_LE_BYTES.4")
  | .toLeBytes8 _ => (0x0036, "TO_LE_BYTES.8")
  | .toLeBytes16 _ => (0x0046, "TO_LE_BYTES.16")
  | .toLeBytes24 _ => (0x0056, "TO_LE_BYTES.24")
  | .toLeBytes32 _ => (0x0066, "TO_LE_BYTES.32")
  | .toBeBytes1 _ => (0x0007, "TO_BE_BYTES.1")
  | .toBeBytes2 _ => (0x0017, "TO_BE_BYTES.2")
  | .toBeBytes4 _ => (0x0027, "TO_BE_BYTES.4")
  | .toBeBytes8 _ => (0x0037, "TO_BE_BYTES.8")
  | .toBeBytes16 _ => (0x0047, "TO_BE_BYTES.16")
  | .toBeBytes24 _ => (0x0057, "TO_BE_BYTES.24")
  | .toBeBytes32 _ => (0x0067, "TO_BE_BYTES.32")

/-- The encoder gives the table's word and the printer the table's mnemonic. -/
def TableWord.Statement (i : Instr) : Prop :=
  (encode i).cw = (tableRow i).1 ∧ i.mnemonic = (tableRow i).2

theorem TableWord.new1 (value : BitVec 32) : TableWord.Statement (.new1 value) :=
  ⟨rfl, rfl⟩

theorem TableWord.new2 (value : BitVec 32) : TableWord.Statement (.new2 value) :=
  ⟨rfl, rfl⟩

theorem TableWord.new4 (value : BitVec 32) : TableWord.Statement (.new4 value) :=
  ⟨rfl, rfl⟩

theorem TableWord.new8 (value : BitVec 32) : TableWord.Statement (.new8 value) :=
  ⟨rfl, rfl⟩

theorem TableWord.new16 (value : BitVec 32) : TableWord.Statement (.new16 value) :=
  ⟨rfl, rfl⟩

theorem TableWord.new24 (value : BitVec 32) : TableWord.Statement (.new24 value) :=
  ⟨rfl, rfl⟩

theorem TableWord.new32 (value : BitVec 32) : TableWord.Statement (.new32 value) :=
  ⟨rfl, rfl⟩

theorem TableWord.fromU32w1 (value : BitVec 32) : TableWord.Statement (.fromU32w1 value) :=
  ⟨rfl, rfl⟩

theorem TableWord.fromU32w2 (value : BitVec 32) : TableWord.Statement (.fromU32w2 value) :=
  ⟨rfl, rfl⟩

theorem TableWord.fromU32w4 (value : BitVec 32) : TableWord.Statement (.fromU32w4 value) :=
  ⟨rfl, rfl⟩

theorem TableWord.fromU32w8 (value : BitVec 32) : TableWord.Statement (.fromU32w8 value) :=
  ⟨rfl, rfl⟩

theorem TableWord.fromU32w16 (value : BitVec 32) : TableWord.Statement (.fromU32w16 value) :=
  ⟨rfl, rfl⟩

theorem TableWord.fromU32w24 (value : BitVec 32) : TableWord.Statement (.fromU32w24 value) :=
  ⟨rfl, rfl⟩

theorem TableWord.fromU32w32 (value : BitVec 32) : TableWord.Statement (.fromU32w32 value) :=
  ⟨rfl, rfl⟩

theorem TableWord.intoInner1 (value : BitVec 32) : TableWord.Statement (.intoInner1 value) :=
  ⟨rfl, rfl⟩

theorem TableWord.intoInner2 (value : BitVec 32) : TableWord.Statement (.intoInner2 value) :=
  ⟨rfl, rfl⟩

theorem TableWord.intoInner4 (value : BitVec 32) : TableWord.Statement (.intoInner4 value) :=
  ⟨rfl, rfl⟩

theorem TableWord.intoInner8 (value : BitVec 32) : TableWord.Statement (.intoInner8 value) :=
  ⟨rfl, rfl⟩

theorem TableWord.intoInner16 (value : BitVec 32) : TableWord.Statement (.intoInner16 value) :=
  ⟨rfl, rfl⟩

theorem TableWord.intoInner24 (value : BitVec 32) : TableWord.Statement (.intoInner24 value) :=
  ⟨rfl, rfl⟩

theorem TableWord.intoInner32 (value : BitVec 32) : TableWord.Statement (.intoInner32 value) :=
  ⟨rfl, rfl⟩

theorem TableWord.load1Lm (index base len : Nat) : TableWord.Statement (.load1Lm index base len) :=
  ⟨rfl, rfl⟩

theorem TableWord.load2Lm (index base len : Nat) : TableWord.Statement (.load2Lm index base len) :=
  ⟨rfl, rfl⟩

theorem TableWord.load4Lm (index base len : Nat) : TableWord.Statement (.load4Lm index base len) :=
  ⟨rfl, rfl⟩

theorem TableWord.load8Lm (index base len : Nat) : TableWord.Statement (.load8Lm index base len) :=
  ⟨rfl, rfl⟩

theorem TableWord.load16Lm (index base len : Nat) : TableWord.Statement (.load16Lm index base len) :=
  ⟨rfl, rfl⟩

theorem TableWord.load24Lm (index base len : Nat) : TableWord.Statement (.load24Lm index base len) :=
  ⟨rfl, rfl⟩

theorem TableWord.load32Lm (index base len : Nat) : TableWord.Statement (.load32Lm index base len) :=
  ⟨rfl, rfl⟩

theorem TableWord.load1Bl (index base len : Nat) : TableWord.Statement (.load1Bl index base len) :=
  ⟨rfl, rfl⟩

theorem TableWord.load2Bl (index base len : Nat) : TableWord.Statement (.load2Bl index base len) :=
  ⟨rfl, rfl⟩

theorem TableWord.load4Bl (index base len : Nat) : TableWord.Statement (.load4Bl index base len) :=
  ⟨rfl, rfl⟩

theorem TableWord.load8Bl (index base len : Nat) : TableWord.Statement (.load8Bl index base len) :=
  ⟨rfl, rfl⟩

theorem TableWord.load16Bl (index base len : Nat) : TableWord.Statement (.load16Bl index base len) :=
  ⟨rfl, rfl⟩

theorem TableWord.load24Bl (index base len : Nat) : TableWord.Statement (.load24Bl index base len) :=
  ⟨rfl, rfl⟩

theorem TableWord.load32Bl (index base len : Nat) : TableWord.Statement (.load32Bl index base len) :=
  ⟨rfl, rfl⟩

theorem TableWord.store1Lm (index : Nat) (value : BitVec 32) (base len : Nat) : TableWord.Statement (.store1Lm index value base len) :=
  ⟨rfl, rfl⟩

theorem TableWord.store2Lm (index : Nat) (value : BitVec 32) (base len : Nat) : TableWord.Statement (.store2Lm index value base len) :=
  ⟨rfl, rfl⟩

theorem TableWord.store4Lm (index : Nat) (value : BitVec 32) (base len : Nat) : TableWord.Statement (.store4Lm index value base len) :=
  ⟨rfl, rfl⟩

theorem TableWord.store8Lm (index : Nat) (value : BitVec 32) (base len : Nat) : TableWord.Statement (.store8Lm index value base len) :=
  ⟨rfl, rfl⟩

theorem TableWord.store16Lm (index : Nat) (value : BitVec 32) (base len : Nat) : TableWord.Statement (.store16Lm index value base len) :=
  ⟨rfl, rfl⟩

theorem TableWord.store24Lm (index : Nat) (value : BitVec 32) (base len : Nat) : TableWord.Statement (.store24Lm index value base len) :=
  ⟨rfl, rfl⟩

theorem TableWord.store32Lm (index : Nat) (value : BitVec 32) (base len : Nat) : TableWord.Statement (.store32Lm index value base len) :=
  ⟨rfl, rfl⟩

theorem TableWord.store1Bl (index : Nat) (value : BitVec 32) (base len : Nat) : TableWord.Statement (.store1Bl index value base len) :=
  ⟨rfl, rfl⟩

theorem TableWord.store2Bl (index : Nat) (value : BitVec 32) (base len : Nat) : TableWord.Statement (.store2Bl index value base len) :=
  ⟨rfl, rfl⟩

theorem TableWord.store4Bl (index : Nat) (value : BitVec 32) (base len : Nat) : TableWord.Statement (.store4Bl index value base len) :=
  ⟨rfl, rfl⟩

theorem TableWord.store8Bl (index : Nat) (value : BitVec 32) (base len : Nat) : TableWord.Statement (.store8Bl index value base len) :=
  ⟨rfl, rfl⟩

theorem TableWord.store16Bl (index : Nat) (value : BitVec 32) (base len : Nat) : TableWord.Statement (.store16Bl index value base len) :=
  ⟨rfl, rfl⟩

theorem TableWord.store24Bl (index : Nat) (value : BitVec 32) (base len : Nat) : TableWord.Statement (.store24Bl index value base len) :=
  ⟨rfl, rfl⟩

theorem TableWord.store32Bl (index : Nat) (value : BitVec 32) (base len : Nat) : TableWord.Statement (.store32Bl index value base len) :=
  ⟨rfl, rfl⟩

theorem TableWord.toLeBytes1 (value : BitVec 32) : TableWord.Statement (.toLeBytes1 value) :=
  ⟨rfl, rfl⟩

theorem TableWord.toLeBytes2 (value : BitVec 32) : TableWord.Statement (.toLeBytes2 value) :=
  ⟨rfl, rfl⟩

theorem TableWord.toLeBytes4 (value : BitVec 32) : TableWord.Statement (.toLeBytes4 value) :=
  ⟨rfl, rfl⟩

theorem TableWord.toLeBytes8 (value : BitVec 32) : TableWord.Statement (.toLeBytes8 value) :=
  ⟨rfl, rfl⟩

theorem TableWord.toLeBytes16 (value : BitVec 32) : TableWord.Statement (.toLeBytes16 value) :=
  ⟨rfl, rfl⟩

theorem TableWord.toLeBytes24 (value : BitVec 32) : TableWord.Statement (.toLeBytes24 value) :=
  ⟨rfl, rfl⟩

theorem TableWord.toLeBytes32 (value : BitVec 32) : TableWord.Statement (.toLeBytes32 value) :=
  ⟨rfl, rfl⟩

theorem TableWord.toBeBytes1 (value : BitVec 32) : TableWord.Statement (.toBeBytes1 value) :=
  ⟨rfl, rfl⟩

theorem TableWord.toBeBytes2 (value : BitVec 32) : TableWord.Statement (.toBeBytes2 value) :=
  ⟨rfl, rfl⟩

theorem TableWord.toBeBytes4 (value : BitVec 32) : TableWord.Statement (.toBeBytes4 value) :=
  ⟨rfl, rfl⟩

theorem TableWord.toBeBytes8 (value : BitVec 32) : TableWord.Statement (.toBeBytes8 value) :=
  ⟨rfl, rfl⟩

theorem TableWord.toBeBytes16 (value : BitVec 32) : TableWord.Statement (.toBeBytes16 value) :=
  ⟨rfl, rfl⟩

theorem TableWord.toBeBytes24 (value : BitVec 32) : TableWord.Statement (.toBeBytes24 value) :=
  ⟨rfl, rfl⟩

theorem TableWord.toBeBytes32 (value : BitVec 32) : TableWord.Statement (.toBeBytes32 value) :=
  ⟨rfl, rfl⟩

end Sys2Proof.Laws
end

