-- ==== Sys2Proof/Laws/Sequencer.lean ====
section
/-! SUPPORT. What each operation of the sequencer can do, said once: the accesses a plan asks for, the completion of a
request, other agents' writes, reset, the block at a clock edge, and what a meaning leaves as the plan sees it. -/

namespace Sys2Proof.Machine

/-- A read LOAD asks for: the checks hold, and it is the next byte of the pixel. -/
theorem plan_load_read {p : Params} {k : Nat} {rd : BitVec 32} {w : Width} {o : DataOrder} {index base len a : Nat}
    (h : plan p k rd (.load w o index base len) = .read a) :
    descOk p base len = true ∧ inb w index len = true ∧ k < 4 ∧
      if w.isSubByte then k = 0 ∧ a = base + byteIndex w index
      else k < pixelBytes w ∧ a = base + byteOffset w index + k := by
  have := pixelBytes_le w
  simp only [plan, planLoad] at h
  split_ifs at h with h1 h2 h3 h4 h5 <;> simp_all
  omega

/-- LOAD writes nothing (R147). -/
theorem plan_load_write {p : Params} {k : Nat} {rd : BitVec 32} {w : Width} {o : DataOrder} {index base len a : Nat}
    {v : Byte} : plan p k rd (.load w o index base len) ≠ .write a v := by
  simp only [plan, planLoad]
  split_ifs <;> simp

/-- The read of a sub-byte STORE; a byte-aligned STORE reads nothing. -/
theorem plan_store_read {p : Params} {k : Nat} {rd v : BitVec 32} {w : Width} {o : DataOrder} {index base len a : Nat}
    (h : plan p k rd (.store w o index v base len) = .read a) :
    descOk p base len = true ∧ inb w index len = true ∧ w.isSubByte = true ∧ k = 0 ∧
      a = base + byteIndex w index := by
  simp only [plan, planStore] at h
  split_ifs at h with h1 h2 h3 h4 h5 <;> simp_all
  split at h <;> simp at h

/-- A write STORE asks for: the merged byte, or the next byte of the split. -/
theorem plan_store_write {p : Params} {k : Nat} {rd v : BitVec 32} {w : Width} {o : DataOrder} {index base len a : Nat}
    {b : Byte} (h : plan p k rd (.store w o index v base len) = .write a b) :
    descOk p base len = true ∧ inb w index len = true ∧ k < 4 ∧
      if w.isSubByte then k = 1 ∧ a = base + byteIndex w index ∧
        b = insertField w (shift w o index) (byteAt rd 0) (maskw w v)
      else k < pixelBytes w ∧ a = base + byteOffset w index + k ∧ (split (pixelBytes w) o (maskw w v))[k]? = some b := by
  have hl := pixelBytes_le w
  simp only [plan, planStore] at h
  split_ifs at h with h1 h2 h3 h4 h5 <;> simp_all
  split at h
  · rename_i d hd
    simp only [Action.write.injEq] at h
    have hk : k < pixelBytes w := by
      by_contra hc
      rw [List.getElem?_eq_none (by rw [split_length]; omega)] at hd
      simp at hd
    exact ⟨by omega, hk, h.1.symm, by rw [hd, h.2]⟩
  · simp at h

/-- Every access a plan asks for is to an existing address of the pixel (R47, R118), and fewer than 4 came before. -/
theorem plan_access {p : Params} {k : Nat} {rd : BitVec 32} {i : Instr} {a : Nat}
    (h : plan p k rd i.shape = .read a ∨ ∃ v, plan p k rd i.shape = .write a v) :
    k < 4 ∧ a ∈ pixelOf i ∧ a < 2 ^ p.addrw := by
  unfold pixelOf
  rcases hi : i.shape with ⟨op, w, v⟩ | ⟨w, o, index, base, len⟩ | ⟨w, o, index, v, base, len⟩ <;> rw [hi] at h
  · simp [plan] at h
  · rcases h with h | ⟨v, h⟩
    · obtain ⟨hd, hb, hk, h⟩ := plan_load_read h
      cases hw : w.isSubByte <;> simp only [hw, if_true, if_false, Bool.false_eq_true] at h
      · exact ⟨hk, by simpa [pixelAddrs, hw, h.2] using h.1, by rw [h.2]; exact aligned_exists hw hd hb h.1⟩
      · exact ⟨hk, by simp [pixelAddrs, hw, h.2], by rw [h.2]; exact subByte_exists hw hd hb⟩
    · exact absurd h plan_load_write
  · rcases h with h | ⟨b, h⟩
    · obtain ⟨hd, hb, hw, hk, rfl⟩ := plan_store_read h
      exact ⟨by omega, by simp [pixelAddrs, hw], subByte_exists hw hd hb⟩
    · obtain ⟨hd, hb, hk, h⟩ := plan_store_write h
      cases hw : w.isSubByte <;> simp only [hw, if_true, if_false, Bool.false_eq_true] at h
      · exact ⟨hk, by simpa [pixelAddrs, hw, h.2.1] using h.1, by rw [h.2.1]; exact aligned_exists hw hd hb h.1⟩
      · exact ⟨hk, by simp [pixelAddrs, hw, h.2.1], by rw [h.2.1]; exact subByte_exists hw hd hb⟩

/-- The next action depends on the parameters, the sampled operands, the byte counter and the read latch alone. -/
theorem nextAction_congr {s t : State} (h1 : t.params = s.params) (h2 : t.op = s.op) (h3 : t.k = s.k)
    (h4 : t.rd = s.rd) : t.nextAction = s.nextAction := by
  simp [State.nextAction, h1, h2, h3, h4]

/-- A completed request: the address exists, and it was the write or the read on the port. -/
theorem completeRequest_ok {rdata : Option Byte} {s t : State} (h : completeRequest rdata s = .ok t) :
    s.memAddr < 2 ^ s.params.addrw ∧
      ((s.memWe = true ∧ t = s.completeWrite) ∨
       (s.memWe = false ∧ t = s.completeRead (rdata.getD (s.mem.read s.memAddr)))) := by
  unfold completeRequest at h
  split_ifs at h with h1 h2 <;> simp_all [addrExists]

/-- Other agents' writes change memory only, at their addresses only, and keep its form. -/
theorem agentWrites_ok {cs : List Host.Cell} {s t : State} (h : agentWrites cs s = .ok t) :
    ∃ m, t = { s with mem := m } ∧ (s.mem.wf = true → m.wf = true) ∧
      ((∀ c ∈ s.mem, addrExists s.params c.1 = true) → ∀ c ∈ m, addrExists s.params c.1 = true) ∧
      ∀ a, (∀ c ∈ cs, c.1 ≠ a) → m.read a = s.mem.read a := by
  induction cs generalizing s with
  | nil =>
    simp only [agentWrites, Except.ok.injEq] at h
    exact ⟨s.mem, h.symm, id, id, fun _ _ => rfl⟩
  | cons c cs ih =>
    obtain ⟨a, v⟩ := c
    simp only [agentWrites] at h
    split at h
    · simp at h
    · rename_i ha
      obtain ⟨m, rfl, h1, h2, h3⟩ := ih h
      refine ⟨m, rfl, fun hw => h1 (Memory.write_wf hw _ _), fun hm => h2 fun c hc => ?_, fun b hb => ?_⟩
      · rcases Memory.mem_write hc with rfl | hc
        · simpa using ha
        · exact hm c hc
      · rw [h3 b (fun c hc => hb c (by simp [hc]))]
        exact Memory.read_write_other _ _ (hb (a, v) (by simp))

/-- An edge with `rst = 1`: the block is reset, after its request landed or without. -/
theorem resetEdge_next {lands : Bool} {s t : State} (h : resetEdge lands s = .next t) :
    t = s.resetBlock ∨
      ((s.memReqValid = true ∨ s.memOutstanding = true) ∧ lands = true ∧
        ∃ u, completeRequest none s = .ok u ∧ t = u.resetBlock) := by
  unfold resetEdge at h
  split at h
  · rename_i hl
    simp only [Bool.and_eq_true, Bool.or_eq_true] at hl
    split at h
    · rename_i u hu
      simp only [Host.Outcome.next.injEq] at h
      exact .inr ⟨hl.1, hl.2, u, hu, h.symm⟩
    · simp at h
  · simp only [Host.Outcome.next.injEq] at h
    exact .inl h.symm

/-- All the block can do at an edge with `rst = 0`. -/
theorem blockEdge_next {e : Edge} {s t : State} (h : blockEdge e s = .next t) :
    (s.rst = true ∧ t = s.dropReset) ∨
    (s.rst = false ∧
      (t = s ∨
       (s.rspValid = true ∧ e.rspReady = true ∧ t = s.takeResponse) ∨
       (s.rspValid = false ∧ s.memReqValid = true ∧ e.memReqReady = true ∧ t = s.acceptRequest) ∨
       (s.rspValid = false ∧ s.memReqValid = false ∧ s.memOutstanding = true ∧ e.memRspValid = true ∧
          completeRequest e.memRdata s = .ok t) ∨
       (s.rspValid = false ∧ s.memReqValid = false ∧ s.memOutstanding = false ∧ s.busy = true ∧ t = s.act) ∨
       (s.rspValid = false ∧ s.memReqValid = false ∧ s.memOutstanding = false ∧ s.busy = false ∧ e.cmdValid = true ∧
          ∃ c, s.presented = some c ∧ t = s.accept (sample s.params c)))) := by
  unfold blockEdge at h
  split at h
  · simp_all
  split at h
  · split at h <;> simp_all
  split at h
  · split at h <;> simp_all
  split at h
  · split at h
    · unfold ofBus at h
      split at h <;> simp_all
    · simp_all
  split at h
  · simp_all
  split at h
  · split at h <;> simp_all
  · simp_all

/-- A clock edge: other agents' writes, then reset or the block. -/
theorem clockEdge_next {e : Edge} {s t : State} (h : clockEdge e s = .next t) :
    ∃ u, agentWrites e.agents s = .ok u ∧
      ((e.rst = true ∧ resetEdge e.lands u = .next t) ∨ (e.rst = false ∧ blockEdge e u = .next t)) := by
  unfold clockEdge at h
  split at h
  · simp at h
  · rename_i u hu
    refine ⟨u, hu, ?_⟩
    split at h <;> simp_all

/-- The bytes of a latch whose lanes are known. -/
theorem bytesLe_eq_map {n : Nat} {rd : BitVec 32} {f : Nat → Byte} (h : ∀ i < n, byteAt rd i = f i) :
    bytesLe n rd = (List.range n).map f := by
  simpa [bytesLe] using h

theorem afterReads_keepsHost (n a : Nat) (s : State) : KeepsHost s (s.afterReads n a) := by
  obtain ⟨h1, h2, h3, h4, -, -, -, -, h5, h6, h7, h8, h9⟩ := State.afterReads_frame n a s
  exact ⟨h1, h2, h3, h4, h5, h6, h7, h8, h9⟩

theorem afterWrites_keepsHost (vs : List Byte) (a : Nat) (s : State) : KeepsHost s (s.afterWrites vs a) := by
  obtain ⟨h1, h2, h3, h4, -, -, -, h5, h6, h7, h8, h9⟩ := State.afterWrites_frame vs a s
  exact ⟨h1, h2, h3, h4, h5, h6, h7, h8, h9⟩

/-- No request is pending. -/
def State.portIdle (s : State) : Prop := s.memReqValid = false ∧ s.memOutstanding = false

theorem afterReads_portIdle {n a : Nat} {s : State} (h : s.portIdle) : (s.afterReads n a).portIdle := by
  induction n generalizing a s with
  | zero => exact h
  | succ n ih => exact ih (a := a + 1) (s := s.afterRead a) ⟨rfl, rfl⟩

theorem afterWrites_portIdle {vs : List Byte} {a : Nat} {s : State} (h : s.portIdle) :
    (s.afterWrites vs a).portIdle := by
  induction vs generalizing a s with
  | nil => exact h
  | cons v vs ih => exact ih (a := a + 1) (s := s.afterWrite a v) ⟨rfl, rfl⟩

/-- Memory is in canonical form inside the address space, and no access has left it. -/
def State.inSpace (s : State) : Prop :=
  s.mem.wf = true ∧ (∀ c ∈ s.mem, c.1 < 2 ^ s.params.addrw) ∧ ∀ x ∈ s.trace, x.addr < 2 ^ s.params.addrw

theorem afterRead_inSpace {a : Nat} {s : State} (ha : a < 2 ^ s.params.addrw) (h : s.inSpace) :
    (s.afterRead a).inSpace := by
  refine ⟨h.1, h.2.1, fun x hx => ?_⟩
  simp only [State.afterRead_trace, List.mem_append, List.mem_singleton] at hx
  rcases hx with hx | rfl
  · exact h.2.2 x hx
  · exact ha

theorem afterWrite_inSpace {a : Nat} {v : Byte} {s : State} (ha : a < 2 ^ s.params.addrw) (h : s.inSpace) :
    (s.afterWrite a v).inSpace := by
  refine ⟨Memory.write_wf h.1 a v, fun c hc => ?_, fun x hx => ?_⟩
  · rcases Memory.mem_write hc with rfl | hc
    · exact ha
    · exact h.2.1 c hc
  · simp only [State.afterWrite_trace, List.mem_append, List.mem_singleton] at hx
    rcases hx with hx | rfl
    · exact h.2.2 x hx
    · exact ha

theorem afterReads_inSpace {n a : Nat} {s : State} (ha : ∀ j < n, a + j < 2 ^ s.params.addrw) (h : s.inSpace) :
    (s.afterReads n a).inSpace := by
  induction n generalizing a s with
  | zero => exact h
  | succ n ih =>
    refine ih (a := a + 1) (s := s.afterRead a) (fun j hj => ?_) (afterRead_inSpace (ha 0 (by omega)) h)
    have := ha (j + 1) (by omega)
    rw [State.afterRead_params]
    omega

theorem afterWrites_inSpace {vs : List Byte} {a : Nat} {s : State}
    (ha : ∀ j < vs.length, a + j < 2 ^ s.params.addrw) (h : s.inSpace) : (s.afterWrites vs a).inSpace := by
  induction vs generalizing a s with
  | nil => exact h
  | cons v vs ih =>
    refine ih (a := a + 1) (s := s.afterWrite a v) (fun j hj => ?_) (afterWrite_inSpace (ha 0 (by simp)) h)
    have := ha (j + 1) (by simpa using hj)
    rw [State.afterWrite_params]
    omega

/-- What a meaning leaves when the byte counter starts at 0, as acceptance sets it. -/
structure Completed (i : Instr) (s t : State) : Prop where
  offered : t.rspValid = true
  /-- the response is the one the plan asks for -/
  planned : plan t.params t.k.toNat t.rd i.shape = .respond t.response
  counter : t.k.toNat ≤ 4
  portIdle : s.portIdle → t.portIdle
  inSpace : s.inSpace → t.inSpace
  host : KeepsHost s t

/-- A meaning that answers without an access. -/
theorem completed_respond {i : Instr} {s : State} {r : Response} (hk : s.k = 0)
    (h : plan s.params 0 s.rd i.shape = .respond r) : Completed i s (s.respond r) where
  offered := rfl
  planned := by simpa [hk] using h
  counter := by simp [hk]
  portIdle := id
  inSpace := id
  host := ⟨rfl, rfl, rfl, rfl, rfl, rfl, rfl, rfl, rfl⟩

theorem exec_completed {i : Instr} {s t : State} (hk : s.k = 0) (h : exec i s = .next t) : Completed i s t := by
  rw [exec_eq_shape] at h
  rcases hi : i.shape with ⟨op, w, v⟩ | ⟨w, o, index, base, len⟩ | ⟨w, o, index, v, base, len⟩ <;>
    simp only [hi, Shape.exec] at h
  · cases h
    exact completed_respond hk (by simp [hi, plan])
  · cases hd : descOk s.params base len
    · cases (load_illegal hd).symm.trans h
      exact completed_respond hk (by simp [hi, plan, hd])
    cases hb : inb w index len
    · cases (load_empty hd hb).symm.trans h
      exact completed_respond hk (by simp [hi, plan, hd, hb])
    cases hw : w.isSubByte
    · cases (load_aligned hw hd hb).symm.trans h
      have host := afterReads_keepsHost (pixelBytes w) (base + byteOffset w index) s
      have hl := pixelBytes_le w
      have hn : (s.afterReads (pixelBytes w) (base + byteOffset w index)).k.toNat = pixelBytes w := by
        simp [State.afterReads_k, hk]
        omega
      refine ⟨rfl, ?_, by simpa [hn] using hl, afterReads_portIdle,
        afterReads_inSpace (fun j hj => aligned_exists hw hd hb hj), ⟨host.1, host.2, host.3, host.4, host.5, host.6, host.7, host.8, host.9⟩⟩
      have lanes := bytesLe_eq_map (n := pixelBytes w)
        (rd := (s.afterReads (pixelBytes w) (base + byteOffset w index)).rd)
        (f := fun j => s.mem.read (base + byteOffset w index + j))
        (fun j hj => by rw [State.afterReads_rd _ _ _ (by simpa [hk] using hl)]; simp [hk, hj])
      simp [hi, plan, planLoad, host.params, hd, hb, hw, hn, lanes]
    · cases (load_subByte hw hd hb).symm.trans h
      refine ⟨rfl, ?_, by simp [hk], fun _ => ⟨rfl, rfl⟩, afterRead_inSpace (subByte_exists hw hd hb),
        ⟨rfl, rfl, rfl, rfl, rfl, rfl, rfl, rfl, rfl⟩⟩
      simp [hi, plan, planLoad, hd, hb, hw, hk, byteAt_setByte _ _ (show 0 < 4 by omega)]
  · cases hd : descOk s.params base len
    · cases (store_illegal hd).symm.trans h
      exact completed_respond hk (by simp [hi, plan, hd])
    cases hb : inb w index len
    · cases (store_outOfBounds hd hb).symm.trans h
      exact completed_respond hk (by simp [hi, plan, hd, hb])
    cases hw : w.isSubByte
    · cases (store_aligned hw hd hb).symm.trans h
      have hl := pixelBytes_le w
      have hs := split_length (pixelBytes w) o (maskw w v)
      have host := afterWrites_keepsHost (split (pixelBytes w) o (maskw w v)) (base + byteOffset w index) s
      have hn : (s.afterWrites (split (pixelBytes w) o (maskw w v)) (base + byteOffset w index)).k.toNat =
          pixelBytes w := by
        simp [State.afterWrites_k, hk, hs]
        omega
      refine ⟨rfl, ?_, by simpa [hn] using hl, afterWrites_portIdle,
        afterWrites_inSpace (fun j hj => aligned_exists hw hd hb (by rwa [hs] at hj)),
        ⟨host.1, host.2, host.3, host.4, host.5, host.6, host.7, host.8, host.9⟩⟩
      simp [hi, plan, planStore, host.params, hd, hb, hw, hn,
        List.getElem?_eq_none (l := split (pixelBytes w) o (maskw w v)) (i := pixelBytes w) (by omega)]
    · cases (store_subByte hw hd hb).symm.trans h
      have he := subByte_exists hw hd hb
      refine ⟨rfl, ?_, by simp [hk], fun _ => ⟨rfl, rfl⟩,
        fun hs => afterWrite_inSpace (by simpa using he) (afterRead_inSpace he hs), by constructor <;> simp⟩
      simp [hi, plan, planStore, hd, hb, hw, hk]

end Sys2Proof.Machine
end

