-- ==== Sys2Proof/Tests/Slice0.lean ====
section
/-! SUPPORT. The model's own tests: the checks of WellFormed refuse ill-formed terms, every constructor's word written out
from R69 decodes to it, the worked examples S1 to S9 and vectors of 95_test_vectors.md run through one step each, edges and
reset, and for each statement with hypotheses a concrete state that meets them. Expected values are the spec's, not the
model's. -/

open Sys2Proof Sys2Proof.Machine

namespace Sys2Proof.Tests

/-! ### Helpers -/

/-- A buffer in memory. -/
def buf (base : Nat) (bytes : List Byte) : Memory :=
  (List.range bytes.length).foldl (fun m j => m.write (base + j) (bytes[j]?.getD 0)) []

/-- The reset machine with a memory and a host that presents one command. -/
def host (c : Command) (m : Memory) : State := { State.reset with program := [c], mem := m }

/-- A property of the next state. -/
def nextWith (p : State → Bool) : Result → Bool
  | .next t => p t
  | _ => false

theorem exists_of_nextWith {p : State → Bool} {r : Result} (h : nextWith p r = true) : ∃ t, r = .next t ∧ p t = true := by
  cases r with
  | next t => exact ⟨t, rfl, h⟩
  | fault f => simp [nextWith] at h
  | refused f => simp [nextWith] at h

/-- One step of the one command answers this response after these accesses. -/
def answers (m : Memory) (c : Command) (r : Response) (a : List Access) : Bool :=
  nextWith (fun t => t.rspValid && t.response == r && t.trace == a) (step (host c m))

/-- One step of the one command answers this response after these accesses and leaves these bytes from `base`. -/
def leaves (m : Memory) (c : Command) (r : Response) (a : List Access) (base : Nat) (bytes : List Byte) : Bool :=
  nextWith (fun t => t.rspValid && t.response == r && t.trace == a &&
    (List.range bytes.length).map (fun j => t.mem.read (base + j)) == bytes && t.mem.wf) (step (host c m))

/-! ### WellFormed refuses ill-formed terms (R5) -/

theorem test_wellFormed_accepts : Instr.wellFormed ⟨4, 5, 6⟩ (.load8Lm 15 63 31) = true := by decide
theorem test_wellFormed_refuses_index : Instr.wellFormed ⟨4, 5, 6⟩ (.load8Lm 16 63 31) = false := by decide
theorem test_wellFormed_refuses_base : Instr.wellFormed ⟨4, 5, 6⟩ (.store8Bl 15 0 64 31) = false := by decide
theorem test_wellFormed_refuses_len : Instr.wellFormed ⟨4, 5, 6⟩ (.store8Bl 15 0 63 32) = false := by decide
theorem test_params_valid : Params.valid ⟨1, 64, 32⟩ = true ∧ Params.valid ⟨0, 32, 32⟩ = false ∧
    Params.valid ⟨32, 65, 32⟩ = false ∧ Params.valid ⟨32, 32, 0⟩ = false := by decide

/-! ### Decoding: every word of R69, with the operand fields of R65 -/

theorem test_decode_NEW :
    decode ⟨0x0001, 3, 0x89ABCDEF, 4096, 8⟩ = .ok (.new1 0x89ABCDEF) ∧
    decode ⟨0x0011, 3, 0x89ABCDEF, 4096, 8⟩ = .ok (.new2 0x89ABCDEF) ∧
    decode ⟨0x0021, 3, 0x89ABCDEF, 4096, 8⟩ = .ok (.new4 0x89ABCDEF) ∧
    decode ⟨0x0031, 3, 0x89ABCDEF, 4096, 8⟩ = .ok (.new8 0x89ABCDEF) ∧
    decode ⟨0x0041, 3, 0x89ABCDEF, 4096, 8⟩ = .ok (.new16 0x89ABCDEF) ∧
    decode ⟨0x0051, 3, 0x89ABCDEF, 4096, 8⟩ = .ok (.new24 0x89ABCDEF) ∧
    decode ⟨0x0061, 3, 0x89ABCDEF, 4096, 8⟩ = .ok (.new32 0x89ABCDEF) := by decide

theorem test_decode_FROM_U32 :
    decode ⟨0x0002, 3, 0x89ABCDEF, 4096, 8⟩ = .ok (.fromU32w1 0x89ABCDEF) ∧
    decode ⟨0x0012, 3, 0x89ABCDEF, 4096, 8⟩ = .ok (.fromU32w2 0x89ABCDEF) ∧
    decode ⟨0x0022, 3, 0x89ABCDEF, 4096, 8⟩ = .ok (.fromU32w4 0x89ABCDEF) ∧
    decode ⟨0x0032, 3, 0x89ABCDEF, 4096, 8⟩ = .ok (.fromU32w8 0x89ABCDEF) ∧
    decode ⟨0x0042, 3, 0x89ABCDEF, 4096, 8⟩ = .ok (.fromU32w16 0x89ABCDEF) ∧
    decode ⟨0x0052, 3, 0x89ABCDEF, 4096, 8⟩ = .ok (.fromU32w24 0x89ABCDEF) ∧
    decode ⟨0x0062, 3, 0x89ABCDEF, 4096, 8⟩ = .ok (.fromU32w32 0x89ABCDEF) := by decide

theorem test_decode_INTO_INNER :
    decode ⟨0x0003, 3, 0x89ABCDEF, 4096, 8⟩ = .ok (.intoInner1 0x89ABCDEF) ∧
    decode ⟨0x0013, 3, 0x89ABCDEF, 4096, 8⟩ = .ok (.intoInner2 0x89ABCDEF) ∧
    decode ⟨0x0023, 3, 0x89ABCDEF, 4096, 8⟩ = .ok (.intoInner4 0x89ABCDEF) ∧
    decode ⟨0x0033, 3, 0x89ABCDEF, 4096, 8⟩ = .ok (.intoInner8 0x89ABCDEF) ∧
    decode ⟨0x0043, 3, 0x89ABCDEF, 4096, 8⟩ = .ok (.intoInner16 0x89ABCDEF) ∧
    decode ⟨0x0053, 3, 0x89ABCDEF, 4096, 8⟩ = .ok (.intoInner24 0x89ABCDEF) ∧
    decode ⟨0x0063, 3, 0x89ABCDEF, 4096, 8⟩ = .ok (.intoInner32 0x89ABCDEF) := by decide

theorem test_decode_LOAD_LM :
    decode ⟨0x0004, 3, 0x89ABCDEF, 4096, 8⟩ = .ok (.load1Lm 3 4096 8) ∧
    decode ⟨0x0014, 3, 0x89ABCDEF, 4096, 8⟩ = .ok (.load2Lm 3 4096 8) ∧
    decode ⟨0x0024, 3, 0x89ABCDEF, 4096, 8⟩ = .ok (.load4Lm 3 4096 8) ∧
    decode ⟨0x0034, 3, 0x89ABCDEF, 4096, 8⟩ = .ok (.load8Lm 3 4096 8) ∧
    decode ⟨0x0044, 3, 0x89ABCDEF, 4096, 8⟩ = .ok (.load16Lm 3 4096 8) ∧
    decode ⟨0x0054, 3, 0x89ABCDEF, 4096, 8⟩ = .ok (.load24Lm 3 4096 8) ∧
    decode ⟨0x0064, 3, 0x89ABCDEF, 4096, 8⟩ = .ok (.load32Lm 3 4096 8) := by decide

theorem test_decode_LOAD_BL :
    decode ⟨0x0084, 3, 0x89ABCDEF, 4096, 8⟩ = .ok (.load1Bl 3 4096 8) ∧
    decode ⟨0x0094, 3, 0x89ABCDEF, 4096, 8⟩ = .ok (.load2Bl 3 4096 8) ∧
    decode ⟨0x00A4, 3, 0x89ABCDEF, 4096, 8⟩ = .ok (.load4Bl 3 4096 8) ∧
    decode ⟨0x00B4, 3, 0x89ABCDEF, 4096, 8⟩ = .ok (.load8Bl 3 4096 8) ∧
    decode ⟨0x00C4, 3, 0x89ABCDEF, 4096, 8⟩ = .ok (.load16Bl 3 4096 8) ∧
    decode ⟨0x00D4, 3, 0x89ABCDEF, 4096, 8⟩ = .ok (.load24Bl 3 4096 8) ∧
    decode ⟨0x00E4, 3, 0x89ABCDEF, 4096, 8⟩ = .ok (.load32Bl 3 4096 8) := by decide

theorem test_decode_STORE_LM :
    decode ⟨0x0005, 3, 0x89ABCDEF, 4096, 8⟩ = .ok (.store1Lm 3 0x89ABCDEF 4096 8) ∧
    decode ⟨0x0015, 3, 0x89ABCDEF, 4096, 8⟩ = .ok (.store2Lm 3 0x89ABCDEF 4096 8) ∧
    decode ⟨0x0025, 3, 0x89ABCDEF, 4096, 8⟩ = .ok (.store4Lm 3 0x89ABCDEF 4096 8) ∧
    decode ⟨0x0035, 3, 0x89ABCDEF, 4096, 8⟩ = .ok (.store8Lm 3 0x89ABCDEF 4096 8) ∧
    decode ⟨0x0045, 3, 0x89ABCDEF, 4096, 8⟩ = .ok (.store16Lm 3 0x89ABCDEF 4096 8) ∧
    decode ⟨0x0055, 3, 0x89ABCDEF, 4096, 8⟩ = .ok (.store24Lm 3 0x89ABCDEF 4096 8) ∧
    decode ⟨0x0065, 3, 0x89ABCDEF, 4096, 8⟩ = .ok (.store32Lm 3 0x89ABCDEF 4096 8) := by decide

theorem test_decode_STORE_BL :
    decode ⟨0x0085, 3, 0x89ABCDEF, 4096, 8⟩ = .ok (.store1Bl 3 0x89ABCDEF 4096 8) ∧
    decode ⟨0x0095, 3, 0x89ABCDEF, 4096, 8⟩ = .ok (.store2Bl 3 0x89ABCDEF 4096 8) ∧
    decode ⟨0x00A5, 3, 0x89ABCDEF, 4096, 8⟩ = .ok (.store4Bl 3 0x89ABCDEF 4096 8) ∧
    decode ⟨0x00B5, 3, 0x89ABCDEF, 4096, 8⟩ = .ok (.store8Bl 3 0x89ABCDEF 4096 8) ∧
    decode ⟨0x00C5, 3, 0x89ABCDEF, 4096, 8⟩ = .ok (.store16Bl 3 0x89ABCDEF 4096 8) ∧
    decode ⟨0x00D5, 3, 0x89ABCDEF, 4096, 8⟩ = .ok (.store24Bl 3 0x89ABCDEF 4096 8) ∧
    decode ⟨0x00E5, 3, 0x89ABCDEF, 4096, 8⟩ = .ok (.store32Bl 3 0x89ABCDEF 4096 8) := by decide

theorem test_decode_TO_LE_BYTES :
    decode ⟨0x0006, 3, 0x89ABCDEF, 4096, 8⟩ = .ok (.toLeBytes1 0x89ABCDEF) ∧
    decode ⟨0x0016, 3, 0x89ABCDEF, 4096, 8⟩ = .ok (.toLeBytes2 0x89ABCDEF) ∧
    decode ⟨0x0026, 3, 0x89ABCDEF, 4096, 8⟩ = .ok (.toLeBytes4 0x89ABCDEF) ∧
    decode ⟨0x0036, 3, 0x89ABCDEF, 4096, 8⟩ = .ok (.toLeBytes8 0x89ABCDEF) ∧
    decode ⟨0x0046, 3, 0x89ABCDEF, 4096, 8⟩ = .ok (.toLeBytes16 0x89ABCDEF) ∧
    decode ⟨0x0056, 3, 0x89ABCDEF, 4096, 8⟩ = .ok (.toLeBytes24 0x89ABCDEF) ∧
    decode ⟨0x0066, 3, 0x89ABCDEF, 4096, 8⟩ = .ok (.toLeBytes32 0x89ABCDEF) := by decide

theorem test_decode_TO_BE_BYTES :
    decode ⟨0x0007, 3, 0x89ABCDEF, 4096, 8⟩ = .ok (.toBeBytes1 0x89ABCDEF) ∧
    decode ⟨0x0017, 3, 0x89ABCDEF, 4096, 8⟩ = .ok (.toBeBytes2 0x89ABCDEF) ∧
    decode ⟨0x0027, 3, 0x89ABCDEF, 4096, 8⟩ = .ok (.toBeBytes4 0x89ABCDEF) ∧
    decode ⟨0x0037, 3, 0x89ABCDEF, 4096, 8⟩ = .ok (.toBeBytes8 0x89ABCDEF) ∧
    decode ⟨0x0047, 3, 0x89ABCDEF, 4096, 8⟩ = .ok (.toBeBytes16 0x89ABCDEF) ∧
    decode ⟨0x0057, 3, 0x89ABCDEF, 4096, 8⟩ = .ok (.toBeBytes24 0x89ABCDEF) ∧
    decode ⟨0x0067, 3, 0x89ABCDEF, 4096, 8⟩ = .ok (.toBeBytes32 0x89ABCDEF) := by decide

theorem test_decode_refuses :
    decode ⟨0x0000, 0, 0, 0, 0⟩ = .error .noOperation ∧ decode ⟨0x0008, 0, 0, 0, 0⟩ = .error .noOperation ∧
    decode ⟨0x000F, 0, 0, 0, 0⟩ = .error .noOperation ∧ decode ⟨0x0074, 0, 0, 0x1000, 8⟩ = .error .noWidth ∧
    decode ⟨0x00F5, 0, 0, 0, 0⟩ = .error .noWidth ∧ decode ⟨0x00A3, 0, 0, 0, 0⟩ = .error .orderOnValueOperation ∧
    decode ⟨0x00D6, 0, 0, 0, 0⟩ = .error .orderOnValueOperation ∧ decode ⟨0x00E7, 0, 0, 0, 0⟩ = .error .orderOnValueOperation ∧
    decode ⟨0x8025, 0, 0, 0, 0⟩ = .error .reservedBits ∧ decode ⟨0xFF01, 0, 0, 0, 0⟩ = .error .reservedBits := by decide

theorem test_table_words : decodeTableWord 16 0x00E5 = some (.store32Bl 0 0 0 0) ∧ decodeTableWord 16 0x0081 = none := by
  decide

theorem test_fetch_runs :
    nextWith (fun t => t.response == ⟨.ok, 0, 1⟩) (step (State.reset.withFetchWord 16 0x0006)) = true ∧
    nextWith (fun t => t.response == ⟨.empty, 0, 0⟩) (step (State.reset.withFetchWord 16 0x0004)) = true ∧
    nextWith (fun t => t.response == ⟨.outOfBounds, 0, 0⟩) (step (State.reset.withFetchWord 16 0x0005)) = true := by decide

theorem test_text : Instr.text (.store4Lm 3 0xF 4096 2) = "STORE.4.LM [4096, 2], 3, 15" ∧
    Response.text (.toBeBytes16 0x1234) ⟨.ok, 0x3412, 2⟩ = "-> OK 13330 2" ∧
    Response.text (.load4Lm 4 0 2) ⟨.empty, 0, 0⟩ = "-> EMPTY" := by decide

/-! ### The source's worked examples S1 to S9 (95_test_vectors.md, section 1) -/

theorem test_source_4bit : ((List.range 4).map (fun i =>
    nextWith (fun t => t.response == ⟨.ok, [0x1, 0x2, 0x4, 0xF][i]?.getD 0, 0⟩)
      (step (host ⟨0x0024, i, 0, 0x1000, 2⟩ (buf 0x1000 [0x12, 0x4F])))) = [true, true, true, true]) := by decide

theorem test_source_24bit : answers (buf 0x1000 [0x11, 0x22, 0x33]) ⟨0x00D4, 0, 0, 0x1000, 3⟩ ⟨.ok, 0x112233, 0⟩
    [.read 0x1000, .read 0x1001, .read 0x1002] = true ∧
    answers [] ⟨0x0053, 0, 0x112233, 0, 0⟩ ⟨.ok, 0x112233, 0⟩ [] = true := by decide

theorem test_source_masks : answers [] ⟨0x0001, 0, 0xFF, 0, 0⟩ ⟨.ok, 0x1, 0⟩ [] = true ∧
    answers [] ⟨0x0011, 0, 0xFF, 0, 0⟩ ⟨.ok, 0x3, 0⟩ [] = true ∧ answers [] ⟨0x0021, 0, 0xFF, 0, 0⟩ ⟨.ok, 0xF, 0⟩ [] = true ∧
    answers [] ⟨0x0051, 0, 0xFFFFFFFF, 0, 0⟩ ⟨.ok, 0xFFFFFF, 0⟩ [] = true := by decide

/-! ### Vectors of 95_test_vectors.md, section 2 -/

/-- The buffer of section 2.3. -/
def loadBuf : Memory := buf 0x1000 [0xA3, 0x1C, 0x5E, 0xF0, 0x07, 0x81, 0x6D, 0xB2]

/-- The buffer of section 2.4. -/
def storeBuf : Memory := buf 0x2000 [0xFF, 0x00, 0xA5, 0x3C]

theorem test_vectors_NEW :
    answers [] ⟨0x0001, 7, 0x89ABCDE6, 8, 9⟩ ⟨.ok, 0x0, 0⟩ [] = true ∧
    answers [] ⟨0x0011, 7, 0x89ABCDE6, 8, 9⟩ ⟨.ok, 0x2, 0⟩ [] = true ∧
    answers [] ⟨0x0021, 7, 0x89ABCDE6, 8, 9⟩ ⟨.ok, 0x6, 0⟩ [] = true ∧
    answers [] ⟨0x0031, 7, 0x89ABCDE6, 8, 9⟩ ⟨.ok, 0xE6, 0⟩ [] = true ∧
    answers [] ⟨0x0041, 7, 0x89ABCDE6, 8, 9⟩ ⟨.ok, 0xCDE6, 0⟩ [] = true ∧
    answers [] ⟨0x0051, 7, 0x89ABCDE6, 8, 9⟩ ⟨.ok, 0xABCDE6, 0⟩ [] = true ∧
    answers [] ⟨0x0061, 7, 0x89ABCDE6, 8, 9⟩ ⟨.ok, 0x89ABCDE6, 0⟩ [] = true := by decide

theorem test_vectors_FROM_U32 :
    answers [] ⟨0x0002, 7, 0x89ABCDE6, 8, 9⟩ ⟨.ok, 0x0, 0⟩ [] = true ∧
    answers [] ⟨0x0012, 7, 0x89ABCDE6, 8, 9⟩ ⟨.ok, 0x2, 0⟩ [] = true ∧
    answers [] ⟨0x0022, 7, 0x89ABCDE6, 8, 9⟩ ⟨.ok, 0x6, 0⟩ [] = true ∧
    answers [] ⟨0x0032, 7, 0x89ABCDE6, 8, 9⟩ ⟨.ok, 0xE6, 0⟩ [] = true ∧
    answers [] ⟨0x0042, 7, 0x89ABCDE6, 8, 9⟩ ⟨.ok, 0xCDE6, 0⟩ [] = true ∧
    answers [] ⟨0x0052, 7, 0x89ABCDE6, 8, 9⟩ ⟨.ok, 0xABCDE6, 0⟩ [] = true ∧
    answers [] ⟨0x0062, 7, 0x89ABCDE6, 8, 9⟩ ⟨.ok, 0x89ABCDE6, 0⟩ [] = true := by decide

theorem test_vectors_INTO_INNER :
    answers [] ⟨0x0003, 7, 0x89ABCDE6, 8, 9⟩ ⟨.ok, 0x0, 0⟩ [] = true ∧
    answers [] ⟨0x0013, 7, 0x89ABCDE6, 8, 9⟩ ⟨.ok, 0x2, 0⟩ [] = true ∧
    answers [] ⟨0x0023, 7, 0x89ABCDE6, 8, 9⟩ ⟨.ok, 0x6, 0⟩ [] = true ∧
    answers [] ⟨0x0033, 7, 0x89ABCDE6, 8, 9⟩ ⟨.ok, 0xE6, 0⟩ [] = true ∧
    answers [] ⟨0x0043, 7, 0x89ABCDE6, 8, 9⟩ ⟨.ok, 0xCDE6, 0⟩ [] = true ∧
    answers [] ⟨0x0053, 7, 0x89ABCDE6, 8, 9⟩ ⟨.ok, 0xABCDE6, 0⟩ [] = true ∧
    answers [] ⟨0x0063, 7, 0x89ABCDE6, 8, 9⟩ ⟨.ok, 0x89ABCDE6, 0⟩ [] = true := by decide

theorem test_vectors_LOAD_LM :
    answers loadBuf ⟨0x0004, 63, 0xFFFFFFFF, 0x1000, 8⟩ ⟨.ok, 0x0, 0⟩ [.read 0x1007] = true ∧
    answers loadBuf ⟨0x0014, 31, 0xFFFFFFFF, 0x1000, 8⟩ ⟨.ok, 0x2, 0⟩ [.read 0x1007] = true ∧
    answers loadBuf ⟨0x0024, 15, 0xFFFFFFFF, 0x1000, 8⟩ ⟨.ok, 0x2, 0⟩ [.read 0x1007] = true ∧
    answers loadBuf ⟨0x0034, 7, 0xFFFFFFFF, 0x1000, 8⟩ ⟨.ok, 0xB2, 0⟩ [.read 0x1007] = true ∧
    answers loadBuf ⟨0x0044, 3, 0xFFFFFFFF, 0x1000, 8⟩ ⟨.ok, 0xB26D, 0⟩ [.read 0x1006, .read 0x1007] = true ∧
    answers loadBuf ⟨0x0054, 1, 0xFFFFFFFF, 0x1000, 8⟩ ⟨.ok, 0x8107F0, 0⟩ [.read 0x1003, .read 0x1004, .read 0x1005] = true ∧
    answers loadBuf ⟨0x0064, 1, 0xFFFFFFFF, 0x1000, 8⟩ ⟨.ok, 0xB26D8107, 0⟩ [.read 0x1004, .read 0x1005, .read 0x1006, .read 0x1007] = true := by decide

theorem test_vectors_LOAD_BL :
    answers loadBuf ⟨0x0084, 63, 0xFFFFFFFF, 0x1000, 8⟩ ⟨.ok, 0x1, 0⟩ [.read 0x1007] = true ∧
    answers loadBuf ⟨0x0094, 31, 0xFFFFFFFF, 0x1000, 8⟩ ⟨.ok, 0x2, 0⟩ [.read 0x1007] = true ∧
    answers loadBuf ⟨0x00A4, 15, 0xFFFFFFFF, 0x1000, 8⟩ ⟨.ok, 0xB, 0⟩ [.read 0x1007] = true ∧
    answers loadBuf ⟨0x00B4, 7, 0xFFFFFFFF, 0x1000, 8⟩ ⟨.ok, 0xB2, 0⟩ [.read 0x1007] = true ∧
    answers loadBuf ⟨0x00C4, 3, 0xFFFFFFFF, 0x1000, 8⟩ ⟨.ok, 0x6DB2, 0⟩ [.read 0x1006, .read 0x1007] = true ∧
    answers loadBuf ⟨0x00D4, 1, 0xFFFFFFFF, 0x1000, 8⟩ ⟨.ok, 0xF00781, 0⟩ [.read 0x1003, .read 0x1004, .read 0x1005] = true ∧
    answers loadBuf ⟨0x00E4, 1, 0xFFFFFFFF, 0x1000, 8⟩ ⟨.ok, 0x7816DB2, 0⟩ [.read 0x1004, .read 0x1005, .read 0x1006, .read 0x1007] = true := by decide

theorem test_vectors_STORE_LM :
    leaves storeBuf ⟨0x0005, 31, 0x1, 0x2000, 4⟩ ⟨.ok, 0, 0⟩ [.read 0x2003, .write 0x2003 0x3D] 0x2000 [0xFF, 0x00, 0xA5, 0x3D] = true ∧
    leaves storeBuf ⟨0x0015, 9, 0xFD, 0x2000, 4⟩ ⟨.ok, 0, 0⟩ [.read 0x2002, .write 0x2002 0x95] 0x2000 [0xFF, 0x00, 0x95, 0x3C] = true ∧
    leaves storeBuf ⟨0x0025, 5, 0xF0, 0x2000, 4⟩ ⟨.ok, 0, 0⟩ [.read 0x2002, .write 0x2002 0xA0] 0x2000 [0xFF, 0x00, 0xA0, 0x3C] = true ∧
    leaves storeBuf ⟨0x0035, 3, 0x1FF, 0x2000, 4⟩ ⟨.ok, 0, 0⟩ [.write 0x2003 0xFF] 0x2000 [0xFF, 0x00, 0xA5, 0xFF] = true ∧
    leaves storeBuf ⟨0x0045, 1, 0x12345678, 0x2000, 4⟩ ⟨.ok, 0, 0⟩ [.write 0x2002 0x78, .write 0x2003 0x56] 0x2000 [0xFF, 0x00, 0x78, 0x56] = true ∧
    leaves storeBuf ⟨0x0055, 0, 0xAB445566, 0x2000, 4⟩ ⟨.ok, 0, 0⟩ [.write 0x2000 0x66, .write 0x2001 0x55, .write 0x2002 0x44] 0x2000 [0x66, 0x55, 0x44, 0x3C] = true ∧
    leaves storeBuf ⟨0x0065, 0, 0xDEADBEEF, 0x2000, 4⟩ ⟨.ok, 0, 0⟩ [.write 0x2000 0xEF, .write 0x2001 0xBE, .write 0x2002 0xAD, .write 0x2003 0xDE] 0x2000 [0xEF, 0xBE, 0xAD, 0xDE] = true := by decide

theorem test_vectors_STORE_BL :
    leaves storeBuf ⟨0x0085, 31, 0x1, 0x2000, 4⟩ ⟨.ok, 0, 0⟩ [.read 0x2003, .write 0x2003 0xBC] 0x2000 [0xFF, 0x00, 0xA5, 0xBC] = true ∧
    leaves storeBuf ⟨0x0095, 9, 0xFD, 0x2000, 4⟩ ⟨.ok, 0, 0⟩ [.read 0x2002, .write 0x2002 0xA5] 0x2000 [0xFF, 0x00, 0xA5, 0x3C] = true ∧
    leaves storeBuf ⟨0x00A5, 5, 0xF0, 0x2000, 4⟩ ⟨.ok, 0, 0⟩ [.read 0x2002, .write 0x2002 0x05] 0x2000 [0xFF, 0x00, 0x05, 0x3C] = true ∧
    leaves storeBuf ⟨0x00B5, 3, 0x1FF, 0x2000, 4⟩ ⟨.ok, 0, 0⟩ [.write 0x2003 0xFF] 0x2000 [0xFF, 0x00, 0xA5, 0xFF] = true ∧
    leaves storeBuf ⟨0x00C5, 1, 0x12345678, 0x2000, 4⟩ ⟨.ok, 0, 0⟩ [.write 0x2002 0x56, .write 0x2003 0x78] 0x2000 [0xFF, 0x00, 0x56, 0x78] = true ∧
    leaves storeBuf ⟨0x00D5, 0, 0xAB445566, 0x2000, 4⟩ ⟨.ok, 0, 0⟩ [.write 0x2000 0x44, .write 0x2001 0x55, .write 0x2002 0x66] 0x2000 [0x44, 0x55, 0x66, 0x3C] = true ∧
    leaves storeBuf ⟨0x00E5, 0, 0xDEADBEEF, 0x2000, 4⟩ ⟨.ok, 0, 0⟩ [.write 0x2000 0xDE, .write 0x2001 0xAD, .write 0x2002 0xBE, .write 0x2003 0xEF] 0x2000 [0xDE, 0xAD, 0xBE, 0xEF] = true := by decide

theorem test_vectors_TO_LE_BYTES :
    answers [] ⟨0x0006, 7, 0xFF, 8, 9⟩ ⟨.ok, 0x1, 1⟩ [] = true ∧
    answers [] ⟨0x0016, 7, 0xFE, 8, 9⟩ ⟨.ok, 0x2, 1⟩ [] = true ∧
    answers [] ⟨0x0026, 7, 0x5C, 8, 9⟩ ⟨.ok, 0xC, 1⟩ [] = true ∧
    answers [] ⟨0x0036, 7, 0x1234, 8, 9⟩ ⟨.ok, 0x34, 1⟩ [] = true ∧
    answers [] ⟨0x0046, 7, 0xABCD1234, 8, 9⟩ ⟨.ok, 0x1234, 2⟩ [] = true ∧
    answers [] ⟨0x0056, 7, 0xFF112233, 8, 9⟩ ⟨.ok, 0x112233, 3⟩ [] = true ∧
    answers [] ⟨0x0066, 7, 0x80000000, 8, 9⟩ ⟨.ok, 0x80000000, 4⟩ [] = true := by decide

theorem test_vectors_TO_BE_BYTES :
    answers [] ⟨0x0007, 7, 0xFF, 8, 9⟩ ⟨.ok, 0x1, 1⟩ [] = true ∧
    answers [] ⟨0x0017, 7, 0xFE, 8, 9⟩ ⟨.ok, 0x2, 1⟩ [] = true ∧
    answers [] ⟨0x0027, 7, 0x5C, 8, 9⟩ ⟨.ok, 0xC, 1⟩ [] = true ∧
    answers [] ⟨0x0037, 7, 0x1234, 8, 9⟩ ⟨.ok, 0x34, 1⟩ [] = true ∧
    answers [] ⟨0x0047, 7, 0xABCD1234, 8, 9⟩ ⟨.ok, 0x3412, 2⟩ [] = true ∧
    answers [] ⟨0x0057, 7, 0xFF112233, 8, 9⟩ ⟨.ok, 0x332211, 3⟩ [] = true ∧
    answers [] ⟨0x0067, 7, 0x80000000, 8, 9⟩ ⟨.ok, 0x80, 4⟩ [] = true := by decide

/-! ### Illegal descriptors and the top of the address space (95_test_vectors.md, sections 2.3 and 2.6) -/

theorem test_illegal_descriptor :
    answers [] ⟨0x0024, 0, 0, 0xFFFFFFFF, 2⟩ ⟨.illegal, 0, 0⟩ [] = true ∧
    answers [] ⟨0x0024, 100, 0, 0xFFFFFFFF, 2⟩ ⟨.illegal, 0, 0⟩ [] = true ∧
    answers [] ⟨0x0035, 0, 1, 0xFFFFFFF0, 0x11⟩ ⟨.illegal, 0, 0⟩ [] = true ∧
    answers [] ⟨0x0021, 0xFFFFFFFF, 0xFF, 0xFFFFFFFF, 0xFFFFFFFF⟩ ⟨.ok, 0xF, 0⟩ [] = true := by decide

theorem test_top_of_space :
    answers (buf 0xFFFFFFFC [1, 2, 3, 4]) ⟨0x0064, 0, 0, 0xFFFFFFFC, 4⟩ ⟨.ok, 0x04030201, 0⟩
      [.read 0xFFFFFFFC, .read 0xFFFFFFFD, .read 0xFFFFFFFE, .read 0xFFFFFFFF] = true ∧
    answers (buf 0x1001 [0x1C, 0x5E, 0xF0, 0x07, 0x81, 0x6D, 0xB2]) ⟨0x0054, 1, 0, 0x1001, 7⟩ ⟨.ok, 0x6D8107, 0⟩
      [.read 0x1004, .read 0x1005, .read 0x1006] = true := by decide

theorem test_bounds_wide_products :
    inb .w32 0x8000000 8 = false ∧ inb .w1 0xFFFFFFFF 0x20000000 = true ∧ inb .w32 0xFFFFFFFF 0xFFFFFFFF = false ∧
    inb .w4 0xFFFFFFFF 0x7FFFFFFF = false ∧ inb .w16 1 3 = false ∧ inb .w24 1 7 = true ∧ inb .w24 2 7 = false := by decide

/-! ### Edges, reset, other agents -/

/-- STORE.4.LM [0x4000, 1], 0, 0xA, as in section 2.8. -/
def storeA : Command := ⟨0x0025, 0, 0xA, 0x4000, 1⟩

/-- The edge at which another agent stores B's pixel: its write of the byte it merged. -/
def agentEdge (a : Nat) (v : Byte) : Edge := { Edge.undisturbed with agents := [(a, v)] }

/-- Order A.R, B.R, B.W, A.W of section 2.8: B's update (0x05) is lost. -/
theorem test_lost_update : nextWith (fun t => t.mem.read 0x4000 == 0xA0 && t.response == ⟨.ok, 0, 0⟩ && t.rspValid)
    (runEdges (List.replicate 4 Edge.undisturbed ++ [agentEdge 0x4000 0x05] ++ List.replicate 3 Edge.undisturbed)
      (host storeA [])) = true := by decide

/-- Order B.R, B.W, A.R, A.W of section 2.8. -/
theorem test_serialized : nextWith (fun t => t.mem.read 0x4000 == 0xA5 && t.rspValid)
    (runEdges (agentEdge 0x4000 0x05 :: List.replicate 7 Edge.undisturbed) (host storeA [])) = true := by decide

theorem test_take_response : nextWith (fun t => t.taken == [⟨.ok, 0x3, 0⟩] && t.pos == 1 && t.cmdReady)
    (runEdges (List.replicate 3 Edge.undisturbed) (host ⟨0x0011, 0, 0xFF, 0, 0⟩ [])) = true := by decide

/-- An edge with `rst = 1`. -/
def resetAt (lands : Bool) : Edge := { Edge.undisturbed with rst := true, lands := lands }

/-- R232: reset after the first byte of STORE.16.BL; the second write's request may land or not. -/
theorem test_reset_tears_store :
    nextWith (fun t => t.mem == [(0x2000, 0x12)] && !t.busy && !t.cmdReady && t.pos == 0)
      (runEdges (List.replicate 6 Edge.undisturbed ++ [resetAt false]) (host ⟨0x00C5, 0, 0x1234, 0x2000, 2⟩ [])) = true ∧
    nextWith (fun t => t.mem == [(0x2000, 0x12), (0x2001, 0x34)] && !t.busy && t.taken == [])
      (runEdges (List.replicate 6 Edge.undisturbed ++ [resetAt true]) (host ⟨0x00C5, 0, 0x1234, 0x2000, 2⟩ [])) = true := by
  decide

/-- R231: the edge at which `rst` falls accepts nothing; the next one does. -/
theorem test_reset_falls :
    nextWith (fun t => !t.busy && t.cmdReady) (runEdges [resetAt false, Edge.undisturbed] (host storeA [])) = true ∧
    nextWith (fun t => t.busy && t.op == storeA)
      (runEdges [resetAt false, Edge.undisturbed, Edge.undisturbed] (host storeA [])) = true := by decide

theorem test_ports_sample : sample ⟨4, 5, 6⟩ ⟨0x0034, 0x1F, 7, 0x41, 0x21⟩ = ⟨0x0034, 0xF, 7, 1, 1⟩ := by decide

theorem test_agent_outside_faults :
    (match clockEdge (agentEdge (2 ^ 32) 1) State.reset with | .fault f => f == .noSuchAddress (2 ^ 32) | _ => false) = true ∧
    nextWith (fun t => t.mem.read (2 ^ 32 - 1) == 1) (clockEdge (agentEdge (2 ^ 32 - 1) 1) State.reset) = true := by decide

theorem test_memory_form : State.reset.mem.wf = true ∧ (buf 3 [1, 0, 2]) = [(3, 1), (5, 2)] ∧
    (buf 3 [1, 0, 2]).write 3 0 = [(5, 2)] ∧ Memory.wf [(5, 2), (3, 1)] = false ∧ Memory.wf [(3, 0)] = false := by decide

/-! ### Witnesses: states and operands that meet the hypotheses of each statement -/

/-- A state in the middle of STORE.4.LM: the read is done, the write request is raised. -/
def pendingState : State :=
  { host storeA [(0x4000, 0x3C)] with busy := true, op := storeA, k := 1, rd := 0x3C, memReqValid := true, memWe := true, memAddr := 0x4000, memWdata := 0xAC, trace := [.read 0x4000] }

/-- A state in which a response is offered. -/
def offeredState : State :=
  { host ⟨0x0011, 0, 0xFF, 0, 0⟩ [] with busy := true, op := ⟨0x0011, 0, 0xFF, 0, 0⟩, rspValid := true, rspValue := 3 }

theorem witness_StepRunsTheDecodedCommand :
    ((host storeA []).agenda = [] ∧ (host storeA []).idle = true ∧ (host storeA []).presented = some storeA ∧
      decode (sample (host storeA []).params storeA) = .ok (.store4Lm 0 0xA 0x4000 1)) ∧
    ((host ⟨0x0071, 0, 0, 0, 0⟩ []).agenda = [] ∧ (host ⟨0x0071, 0, 0, 0, 0⟩ []).idle = true ∧
      (host ⟨0x0071, 0, 0, 0, 0⟩ []).presented = some ⟨0x0071, 0, 0, 0, 0⟩ ∧
      decode (sample (host ⟨0x0071, 0, 0, 0, 0⟩ []).params ⟨0x0071, 0, 0, 0, 0⟩) = .error .noWidth) ∧
    (State.agenda { State.reset with agenda := [Edge.undisturbed] } = [Edge.undisturbed]) ∧
    decodeTableWord 16 0x0061 = some (.new32 0) := by decide

/-- Legal at the last word and descriptor, illegal at the next. -/
theorem witness_IllegalCommandsAnswerIllegal :
    ((host ⟨0x00E5, 0, 1, 0xFFFFFFFC, 4⟩ []).idle = true ∧
      (host ⟨0x00E5, 0, 1, 0xFFFFFFFC, 4⟩ []).presented = some ⟨0x00E5, 0, 1, 0xFFFFFFFC, 4⟩ ∧
      Command.fits Config.defaultParams ⟨0x00E5, 0, 1, 0xFFFFFFFC, 4⟩ = true ∧
      answers [] ⟨0x00E5, 0, 1, 0xFFFFFFFC, 4⟩ ⟨.ok, 0, 0⟩ [.write 0xFFFFFFFC 0, .write 0xFFFFFFFD 0,
        .write 0xFFFFFFFE 0, .write 0xFFFFFFFF 1] = true) ∧
    Command.fits Config.defaultParams ⟨0x00E5, 0, 1, 0xFFFFFFFC, 5⟩ = true ∧
    answers [] ⟨0x00E5, 0, 1, 0xFFFFFFFC, 5⟩ ⟨.illegal, 0, 0⟩ [] = true ∧
    answers [] ⟨0x0105, 0, 1, 0, 4⟩ ⟨.illegal, 0, 0⟩ [] = true ∧ answers [] ⟨0x0010, 0, 0, 0, 0⟩ ⟨.illegal, 0, 0⟩ [] = true ∧
    answers [] ⟨0x0018, 0, 0, 0, 0⟩ ⟨.illegal, 0, 0⟩ [] = true ∧ answers [] ⟨0x0070, 0, 0, 0, 0⟩ ⟨.illegal, 0, 0⟩ [] = true ∧
    answers [] ⟨0x0081, 0, 0, 0, 0⟩ ⟨.illegal, 0, 0⟩ [] = true := by decide

theorem witness_ByteSequenceRelations :
    bits .w8 ≤ 8 ∧ 8 ≤ bits .w8 ∧ 0xFFFFFFFD + 3 ≤ 2 ^ State.reset.params.addrw ∧ (0 + 1) * bits .w24 ≤ 3 * 8 ∧
    nextWith (fun t => t.mem.read 0xFFFFFFFF == 0x11)
      (exec (storeInstr .w24 .littleEndianMsb0 0 0x112233 0xFFFFFFFD 3) State.reset) = true := by decide

theorem witness_BoundsCheckNeedsNoProduct : Width.w24.isSubByte = false ∧ Width.w2.isSubByte = true ∧
    inb .w24 1 6 = true ∧ inb .w24 1 5 = false ∧ inb .w2 7 2 = true ∧ inb .w2 8 2 = false := by decide

theorem witness_ShiftAndFieldMaskTable : Width.w1.isSubByte = true ∧ slot .w1 15 = 7 ∧ slot .w1 16 = 0 := by decide

theorem witness_PixelAddressesStayInTheBuffer :
    descOk ⟨32, 32, 32⟩ 0xFFFFFFFA 6 = true ∧ inb .w24 1 6 = true ∧
    pixelAddrs .w24 1 0xFFFFFFFA = [0xFFFFFFFD, 0xFFFFFFFE, 0xFFFFFFFF] ∧
    decode pendingState.op = .ok (storeInstr .w4 .littleEndianMsb0 0 0xA 0x4000 1) ∧
    pendingState.nextAction = .write 0x4000 0xAC := by decide

theorem witness_SplitAndAssembleAreInverse : 1 ≤ 1 ∧ 1 ≤ 4 ∧ 4 ≤ 4 ∧ ([0x11, 0x22, 0x33] : List Byte).length = 3 ∧
    split 3 .bigEndianLsb0 0x112233 = [0x11, 0x22, 0x33] := by decide

theorem witness_InsertChangesOnlyTheField : Width.w2.isSubByte = true ∧ (3 : BitVec 32).toNat < 2 ^ bits .w2 ∧
    insertField .w2 (shift .w2 .littleEndianMsb0 1) 0xC7 3 = 0xF7 := by decide

/-- The three clauses of SubByteLoadsExtractTheField, LittleEndianLoadsAssembleBytes and BigEndianLoadsAssembleBytes at the
boundary of each range. -/
theorem witness_Loads :
    2 ^ State.reset.params.addrw < 0xFFFFFFFF + 2 ∧
    (0xFFFFFFFE + 2 ≤ 2 ^ State.reset.params.addrw ∧ 2 * 8 < (4 + 1) * 4 ∧ 2 * 8 < (2 + 1) * 8) ∧
    (0xFFFFFFFE + 2 ≤ 2 ^ State.reset.params.addrw ∧ (3 + 1) * 4 ≤ 2 * 8 ∧ (1 + 1) * 8 ≤ 2 * 8) ∧
    nextWith (fun t => t.response == ⟨.illegal, 0, 0⟩) (exec (.load4Lm 0 0xFFFFFFFF 2) State.reset) = true ∧
    nextWith (fun t => t.response == ⟨.empty, 0, 0⟩) (exec (.load4Lm 4 0xFFFFFFFE 2) State.reset) = true ∧
    nextWith (fun t => t.response == ⟨.ok, 0, 0⟩ && t.memAddr == 0xFFFFFFFF)
      (exec (.load4Lm 3 0xFFFFFFFE 2) State.reset) = true ∧
    nextWith (fun t => t.response == ⟨.ok, 0, 0⟩ && t.memAddr == 0xFFFFFFFF)
      (exec (.load8Bl 1 0xFFFFFFFE 2) State.reset) = true := by decide

/-- The three clauses of SubByteStoresMergeTheField, LittleEndianStoresSplitBytes and BigEndianStoresSplitBytes at the
boundary of each range. -/
theorem witness_Stores :
    nextWith (fun t => t.response == ⟨.illegal, 0, 0⟩) (exec (.store4Lm 0 0xF 0xFFFFFFFF 2) State.reset) = true ∧
    nextWith (fun t => t.response == ⟨.outOfBounds, 0, 0⟩) (exec (.store4Lm 4 0xF 0xFFFFFFFE 2) State.reset) = true ∧
    nextWith (fun t => t.mem == [(0xFFFFFFFF, 0x0F)]) (exec (.store4Lm 3 0xF 0xFFFFFFFE 2) State.reset) = true ∧
    nextWith (fun t => t.response == ⟨.outOfBounds, 0, 0⟩) (exec (.store16Bl 1 0xABCD 0xFFFFFFFE 2) State.reset) = true ∧
    nextWith (fun t => t.mem == [(0xFFFFFFFE, 0xAB), (0xFFFFFFFF, 0xCD)])
      (exec (.store16Bl 0 0xABCD 0xFFFFFFFE 2) State.reset) = true := by decide

theorem witness_StoreThenLoadReturnsTheValue :
    (∃ t, exec (storeInstr .w2 .littleEndianMsb0 3 0xFE 0x1000 1) State.reset = .next t ∧
      (t.rspStatus == .ok && t.mem == [(0x1000, 0x02)]) = true) ∧
    (∃ t, exec (storeInstr .w16 .bigEndianLsb0 0 0x1234 0x1000 2) State.reset = .next t ∧
      (t.rspStatus == .ok && t.mem == [(0x1000, 0x12), (0x1001, 0x34)]) = true) ∧
    DataOrder.littleEndianMsb0 ≠ .bigEndianLsb0 ∧ Width.w2.isSubByte = true ∧ Width.w16.isSubByte = false :=
  ⟨exists_of_nextWith (by decide), exists_of_nextWith (by decide), by decide, by decide, by decide⟩

theorem witness_StoreLeavesEveryOtherPixel :
    (∃ t, exec (storeInstr .w4 .littleEndianMsb0 0 0xA 0x4000 1) { State.reset with mem := [(0x4000, 0x3C)] } = .next t ∧
      (t.rspStatus == .ok && t.mem == [(0x4000, 0xAC)]) = true) ∧
    (1 : Nat) ≠ 0 ∧ 0x4001 ∉ pixelAddrs .w4 0 0x4000 ∧ Width.w4.isSubByte = true ∧
    ¬ (shift .w4 .littleEndianMsb0 0 ≤ 3 ∧ 3 < shift .w4 .littleEndianMsb0 0 + bits .w4) :=
  ⟨exists_of_nextWith (by decide), by decide, by decide, by decide, by decide⟩

theorem witness_FailedCommandsHaveNoEffect :
    nextWith (fun t => t.rspStatus == .empty) (exec (.load24Lm 0 0 2) State.reset) = true ∧
    nextWith (fun t => t.rspStatus == .ok) (exec (.load24Lm 0 0 3) State.reset) = true ∧
    decode (sample State.reset.params ⟨0x0070, 0, 0, 0, 0⟩) = .error .noWidth := by decide

theorem witness_StatusesEachOperationCanGive :
    (∃ t, exec (.store8Lm 5 0 0 5) State.reset = .next t ∧ (t.rspStatus == .outOfBounds) = true) ∧
    (host ⟨0x0009, 0, 0, 0, 0⟩ []).agenda = [] ∧ (host ⟨0x0009, 0, 0, 0, 0⟩ []).idle = true ∧
    (host ⟨0x0009, 0, 0, 0, 0⟩ []).presented = some ⟨0x0009, 0, 0, 0, 0⟩ ∧
    decode (sample (host ⟨0x0009, 0, 0, 0, 0⟩ []).params ⟨0x0009, 0, 0, 0, 0⟩) = .error .noOperation :=
  ⟨exists_of_nextWith (by decide), by decide, by decide, by decide, by decide⟩

/-- Two states that agree on the pixel and differ elsewhere. -/
theorem witness_OutcomeDependsOnlyOnOperandsAndPixel :
    State.reset.params = offeredState.params ∧ State.reset.trace ≠ pendingState.trace ∧
    ∀ a ∈ pixelOf (.load16Lm 0 0x3FFE 2), State.reset.mem.read a = pendingState.mem.read a := by decide

theorem witness_AccessesStayInTheBuffer :
    (∃ t, exec (.store16Lm 1 0x1234 0 4) State.reset = .next t ∧ (t.trace == [.write 2 0x34, .write 3 0x12]) = true) ∧
    ∃ t, exec (.load1Bl 8 0 1) State.reset = .next t ∧ (t.trace == []) = true :=
  ⟨exists_of_nextWith (by decide), exists_of_nextWith (by decide)⟩

theorem witness_MixedWidthViewOfAByte : 0xFFFFFFFF + 1 ≤ 2 ^ State.reset.params.addrw ∧ 0 < 1 := by decide

/-- The invariant holds in the middle of a command, and the step answers. -/
theorem witness_EveryStepKeepsTheInvariant : pendingState.Inv ∧ ∃ t, step pendingState = .next t ∧ t.memOutstanding = true :=
  ⟨by constructor <;> decide, exists_of_nextWith (by decide)⟩

/-- So it does with an agenda: an edge with another agent's write and a reset that lets the request land. -/
theorem witness_EveryStepKeepsTheInvariant_agenda :
    State.Inv { pendingState with agenda := [{ resetAt true with agents := [(7, 9)] }] } ∧
    ∃ t, step { pendingState with agenda := [{ resetAt true with agents := [(7, 9)] }] } = .next t ∧
      (t.rst && t.mem == [(7, 9), (0x4000, 0xAC)] && t.agenda == []) = true :=
  ⟨by constructor <;> decide, exists_of_nextWith (by decide)⟩

theorem witness_EdgeByEdgeRunReachesExec : (host ⟨0x00E5, 0, 1, 0, 4⟩ []).idle = true ∧
    (host ⟨0x00E5, 0, 1, 0, 4⟩ []).presented = some ⟨0x00E5, 0, 1, 0, 4⟩ ∧
    nextWith (fun t => t.rspValid) (runEdges (List.replicate 14 Edge.undisturbed) (host ⟨0x00E5, 0, 1, 0, 4⟩ [])) = true := by
  decide

/-- Edges at which the response is not taken and nobody resets. -/
def quietEdge : Edge := { Edge.undisturbed with rspReady := false }

/-- An edge at which nothing is ready. -/
def waitEdge : Edge := ⟨[], false, false, false, false, false, false, none⟩

theorem witness_WaitingAndOutsideWritersDoNotMatter :
    (host storeA []).idle = true ∧ (host storeA []).presented = some storeA ∧
    decode (sample (host storeA []).params storeA) = .ok (.store4Lm 0 0xA 0x4000 1) ∧
    (∀ e ∈ [waitEdge, { quietEdge with agents := [(0x3FFF, 1), (0x4001, 2)] }] ++ List.replicate 8 quietEdge,
      e.avoids (pixelOf (.store4Lm 0 0xA 0x4000 1)) = true) ∧
    ∃ u, runEdges ([waitEdge, { quietEdge with agents := [(0x3FFF, 1), (0x4001, 2)] }] ++ List.replicate 8 quietEdge)
        (host storeA []) = .next u ∧
      (u.rspValid && u.mem == [(0x3FFF, 1), (0x4000, 0xA0), (0x4001, 2)]) = true :=
  ⟨by decide, by decide, by decide, by decide, exists_of_nextWith (by decide)⟩

/-- STORE.16.BL [0xFFFFFFFE, 2], 0, 0x1234: the last pixel of the address space. -/
def storeTop : Command := ⟨0x00C5, 0, 0x1234, 0xFFFFFFFE, 2⟩

theorem witness_ResetDuringByteAlignedCommand :
    (host storeTop []).idle = true ∧ (host storeTop []).presented = some storeTop ∧
    decode (sample (host storeTop []).params storeTop) = .ok (storeInstr .w16 .bigEndianLsb0 0 0x1234 0xFFFFFFFE 2) ∧
    Width.w16.isSubByte = false ∧ 0xFFFFFFFE + 2 ≤ 2 ^ (host storeTop []).params.addrw ∧ (0 + 1) * bits .w16 ≤ 2 * 8 ∧
    (∀ e ∈ List.replicate 5 quietEdge, e.quiet = true) ∧ (resetAt false).rst = true ∧ (resetAt false).agents = [] ∧
    ∃ t, runEdges (List.replicate 5 quietEdge ++ [resetAt false]) (host storeTop []) = .next t ∧
      (t.mem == [(0xFFFFFFFE, 0x12)]) = true :=
  ⟨by decide, by decide, by decide, by decide, by decide, by decide, by decide, by decide, by decide,
    exists_of_nextWith (by decide)⟩

theorem witness_ResetDuringSubByteCommand :
    decode (sample (host storeA []).params storeA) = .ok (.store4Lm 0 0xA 0x4000 1) ∧
    (∀ e ∈ List.replicate 6 quietEdge, e.quiet = true) ∧
    (∃ t, runEdges (List.replicate 6 quietEdge ++ [resetAt true]) (host storeA []) = .next t ∧
      (t.mem == [(0x4000, 0xA0)]) = true) ∧
    (∃ t, runEdges (List.replicate 6 quietEdge ++ [resetAt false]) (host storeA []) = .next t ∧ (t.mem == []) = true) ∧
    ∃ t, runEdges (List.replicate 2 quietEdge ++ [resetAt true]) (host ⟨0x0004, 0, 0, 0, 1⟩ []) = .next t ∧
      (t.mem == []) = true :=
  ⟨by decide, by decide, exists_of_nextWith (by decide), exists_of_nextWith (by decide), exists_of_nextWith (by decide)⟩

/-- The clauses of ResetDuringSubByteCommand on commands that write nothing, at the boundary of each range: STORE.8 one byte
beyond the space, STORE.4 and STORE.16 one pixel out of bounds, and a word that names no operation. -/
theorem witness_ResetDuringSubByteCommand_failed :
    (decode (sample State.reset.params ⟨0x0035, 0, 1, 0xFFFFFFFF, 2⟩) = .ok (storeInstr .w8 .littleEndianMsb0 0 1 0xFFFFFFFF 2) ∧
      2 ^ State.reset.params.addrw < 0xFFFFFFFF + 2) ∧
    (decode (sample State.reset.params ⟨0x0025, 2, 1, 7, 1⟩) = .ok (storeInstr .w4 .littleEndianMsb0 2 1 7 1) ∧
      1 * 8 < (2 + 1) * bits .w4 ∧ 1 * 8 < (0 + 1) * bits .w16) ∧
    decode (sample State.reset.params ⟨0x0075, 0, 1, 7, 1⟩) = .error .noWidth ∧
    (∀ c ∈ ([⟨0x0035, 0, 1, 0xFFFFFFFF, 2⟩, ⟨0x0025, 2, 1, 7, 1⟩, ⟨0x0045, 0, 1, 7, 1⟩, ⟨0x0075, 0, 1, 7, 1⟩] : List Command),
      (host c []).idle = true ∧ (host c []).presented = some c ∧
      nextWith (fun t => t.mem == [] && t.taken == [] && !t.busy)
        (runEdges (List.replicate 3 quietEdge ++ [resetAt true]) (host c [])) = true) := by decide

theorem witness_WriteBetweenReadAndMergeIsLost :
    (host storeA []).idle = true ∧ (host storeA []).presented = some storeA ∧
    decode (sample (host storeA []).params storeA) = .ok (storeInstr .w4 .littleEndianMsb0 0 0xA 0x4000 1) ∧
    Width.w4.isSubByte = true ∧ 0x4000 + 1 ≤ 2 ^ (host storeA []).params.addrw ∧ (0 + 1) * bits .w4 ≤ 1 * 8 := by decide

theorem witness_AnEdgeWritesAtMostTheRequestedByte : (resetAt true).agents = [] ∧
    (∃ t, clockEdge (resetAt true) pendingState = .next t ∧ (t.mem == [(0x4000, 0xAC)]) = true) ∧
    ∃ t, clockEdge Edge.undisturbed pendingState = .next t ∧ (t.trace == pendingState.trace && t.memOutstanding) = true :=
  ⟨by decide, exists_of_nextWith (by decide), exists_of_nextWith (by decide)⟩

theorem witness_ResponseIsHeldUntilTaken : offeredState.rspValid = true ∧ offeredState.rst = false ∧
    quietEdge.rst = false ∧ quietEdge.rspReady = false ∧ Edge.undisturbed.rspReady = true ∧
    (∃ t, clockEdge quietEdge offeredState = .next t ∧ t.rspValid = true) ∧
    ∃ t, clockEdge Edge.undisturbed offeredState = .next t ∧ (t.taken == [⟨.ok, 3, 0⟩]) = true :=
  ⟨by decide, by decide, by decide, by decide, by decide, exists_of_nextWith (by decide), exists_of_nextWith (by decide)⟩

theorem witness_HostPositionAdvancesWithEachResponse :
    (∃ t, step offeredState = .next t ∧ (t.pos == 1) = true) ∧ ∃ t, step (host storeA []) = .next t ∧ (t.pos == 0) = true :=
  ⟨exists_of_nextWith (by decide), exists_of_nextWith (by decide)⟩

theorem witness_OneCommandAtATime :
    (∃ t, step (host storeA []) = .next t ∧ (!(host storeA []).busy && t.busy && t.op == storeA) = true) ∧
    (∃ t, step offeredState = .next t ∧ (offeredState.busy && !t.busy) = true) ∧
    ∃ t, step { pendingState with agenda := [resetAt false] } = .next t ∧ (pendingState.busy && !t.busy && t.rst) = true :=
  ⟨exists_of_nextWith (by decide), exists_of_nextWith (by decide), exists_of_nextWith (by decide)⟩

theorem witness_SilentMemoryLeavesTheBlockBusy :
    State.busy { pendingState with memReqValid := false, memOutstanding := true } = true ∧ pendingState.rst = false ∧
    pendingState.rspValid = false ∧
    ∀ e ∈ List.replicate 3 waitEdge, e.rst = false ∧ e.memRspValid = false ∧ e.agents = [] := by decide

theorem witness_ResetEdgeMakesTheBlockIdle : (resetAt false).rst = true ∧ (resetAt false).agents = [] ∧
    waitEdge.rst = false ∧ waitEdge.agents = [] ∧ offeredState.memReqValid = false ∧ offeredState.memOutstanding = false := by
  decide

/-- Waits and another agent's write into the pixel before 14 ready edges: STORE.32.BL completes. -/
theorem witness_CommandsFinishWithASlowMemory :
    (host ⟨0x00E5, 0, 1, 0xFFFFFFFC, 4⟩ []).idle = true ∧
    (host ⟨0x00E5, 0, 1, 0xFFFFFFFC, 4⟩ []).presented = some ⟨0x00E5, 0, 1, 0xFFFFFFFC, 4⟩ ∧
    (∀ e ∈ [waitEdge, { waitEdge with agents := [(0xFFFFFFFF, 1)] }] ++ List.replicate 14 quietEdge,
      e.avoids [] = true ∧ ∀ a ∈ e.agents, a.1 < 2 ^ (host ⟨0x00E5, 0, 1, 0xFFFFFFFC, 4⟩ []).params.addrw) ∧
    14 ≤ ([waitEdge, { waitEdge with agents := [(0xFFFFFFFF, 1)] }] ++ List.replicate 14 quietEdge).countP Edge.ready ∧
    nextWith (fun t => t.rspValid && t.response == ⟨.ok, 0, 0⟩)
      (runEdges ([waitEdge, { waitEdge with agents := [(0xFFFFFFFF, 1)] }] ++ List.replicate 14 quietEdge)
        (host ⟨0x00E5, 0, 1, 0xFFFFFFFC, 4⟩ [])) = true := by decide

/-- The state after STORE.4.LM and the taking of its response: idle, `mem_we` 0, a LOAD of the pixel presented next. -/
def loadAfterStore : State := { host ⟨0x0024, 0, 0, 0x4000, 1⟩ [(0x4000, 0xA0)] with trace := [.read 0x4000, .write 0x4000 0xA0] }

theorem witness_LoadLeavesNothingBehind : loadAfterStore.Inv ∧ loadAfterStore.agenda = [] ∧ loadAfterStore.idle = true ∧
    loadAfterStore.presented = some ⟨0x0024, 0, 0, 0x4000, 1⟩ ∧
    decode (sample loadAfterStore.params ⟨0x0024, 0, 0, 0x4000, 1⟩) = .ok (loadInstr .w4 .littleEndianMsb0 0 0x4000 1) ∧
    ∃ t, step loadAfterStore = .next t ∧ (t.response == ⟨.ok, 0xA, 0⟩ && t.rspValid) = true :=
  ⟨by constructor <;> decide, by decide, by decide, by decide, by decide, exists_of_nextWith (by decide)⟩

/-- R147, R20: after a STORE, and after a LOAD that follows it, `mem_we` is 0 (log 20). -/
theorem test_idle_memWe :
    nextWith (fun t => t.memWe && t.rspValid)
      (runEdges (List.replicate 8 Edge.undisturbed) { host storeA [] with program := [storeA, ⟨0x0024, 0, 0, 0x4000, 1⟩] }) = true ∧
    nextWith (fun t => !t.memWe && !t.busy && t.pos == 1)
      (runEdges (List.replicate 9 Edge.undisturbed) { host storeA [] with program := [storeA, ⟨0x0024, 0, 0, 0x4000, 1⟩] }) = true ∧
    nextWith (fun t => !t.memWe && !t.busy && t.pos == 2)
      (runEdges (List.replicate 15 Edge.undisturbed) { host storeA [] with program := [storeA, ⟨0x0024, 0, 0, 0x4000, 1⟩] }) = true := by
  decide

/-- A completion pulse at the reset edge does not decide whether the outstanding write is kept: `lands` does (log 23). -/
theorem test_pulse_at_reset_edge : (resetAt false).memRspValid = true ∧
    nextWith (fun t => t.mem == [(0x4000, 0x3C)] && !t.memOutstanding)
      (clockEdge (resetAt false) { pendingState with memReqValid := false, memOutstanding := true }) = true ∧
    nextWith (fun t => t.mem == [(0x4000, 0xAC)] && !t.memOutstanding)
      (clockEdge (resetAt true) { pendingState with memReqValid := false, memOutstanding := true }) = true := by decide

/-- `rst` comes before the handshake: the offered response is abandoned, not taken (R232; log 22). -/
theorem test_reset_before_response_taken : (resetAt false).rspReady = true ∧
    nextWith (fun t => t.taken == [] && t.pos == 0 && !t.rspValid && !t.busy) (clockEdge (resetAt false) offeredState) = true := by
  decide

end Sys2Proof.Tests
end

section
/-! ## What a step can do, as the host and the command port see it (R22, R31, R32, R35)

`HostStep` says once what one step can do to the parameters, the host's list and position, the responses taken, `busy`
and the sampled operands; the statements about the host and about acceptance are its cases. -/

namespace Sys2Proof.Machine

/-- The four ways in which a step can move the block as its host sees it. -/
inductive HostMove (s t : State) : Prop
  /-- nothing of it moves: a wait, or a move on the memory port -/
  | stay (busy : t.busy = s.busy) (op : t.op = s.op) (pos : t.pos = s.pos) (taken : t.taken = s.taken)
  /-- the presented command is accepted (R31, R35) -/
  | accept (c : Command) (presented : s.presented = some c) (ready : s.cmdReady = true) (busy : t.busy = true)
      (op : t.op = sample s.params c) (pos : t.pos = s.pos) (taken : t.taken = s.taken)
  /-- the offered response is taken (R32, R22) -/
  | take (offered : s.rspValid = true) (gone : t.rspValid = false) (busy : t.busy = false) (pos : t.pos = s.pos + 1)
      (taken : t.taken = s.taken ++ [s.response])
  /-- `rst` abandons the command (R231, R232) -/
  | reset (rst : t.rst = true) (busy : t.busy = false) (pos : t.pos = s.pos) (taken : t.taken = s.taken)

/-- A step as the host sees it: the parameters and its list stay, and the block makes one of the four moves. -/
structure HostStep (s t : State) : Prop where
  params : t.params = s.params
  program : t.program = s.program
  move : HostMove s t

/-- Neither memory nor the agenda is anything a move of the host's side looks at. -/
theorem HostStep.of_mem_agenda {s t : State} {m : Memory} {l : List Edge}
    (h : HostStep { s with mem := m, agenda := l } t) : HostStep s t where
  params := h.params
  program := h.program
  move := by
    cases h.move with
    | stay busy op pos taken => exact .stay busy op pos taken
    | accept c presented ready busy op pos taken => exact .accept c presented ready busy op pos taken
    | take offered gone busy pos taken => exact .take offered gone busy pos taken
    | reset rst busy pos taken => exact .reset rst busy pos taken

/-- What the block does next is a read request, a write request or its response. -/
theorem State.act_cases (s : State) :
    (∃ a, s.nextAction = .read a ∧ s.act = s.raiseRead a) ∨
    (∃ a v, s.nextAction = .write a v ∧ s.act = s.raiseWrite a v) ∨
    (∃ r, s.nextAction = .respond r ∧ s.act = s.respond r) := by
  cases h : s.nextAction with
  | read a => exact .inl ⟨a, rfl, by simp [State.act, h]⟩
  | write a v => exact .inr (.inl ⟨a, v, rfl, by simp [State.act, h]⟩)
  | respond r => exact .inr (.inr ⟨r, rfl, by simp [State.act, h]⟩)

/-- A completed access leaves the host's side of the block alone. -/
theorem completeRequest_keepsHost {rdata : Option Byte} {s t : State} (h : completeRequest rdata s = .ok t) :
    KeepsHost s t := by
  obtain ⟨-, ⟨-, rfl⟩ | ⟨-, rfl⟩⟩ := completeRequest_ok h
  · exact ⟨rfl, rfl, rfl, rfl, rfl, rfl, rfl, rfl, rfl⟩
  · exact ⟨rfl, rfl, rfl, rfl, rfl, rfl, rfl, rfl, rfl⟩

/-- The block's next request or response leaves the host's side of the block alone. -/
theorem State.act_keepsHost (s : State) : KeepsHost s s.act := by
  obtain ⟨a, -, h⟩ | ⟨a, v, -, h⟩ | ⟨r, -, h⟩ := s.act_cases <;> rw [h]
  · exact ⟨rfl, rfl, rfl, rfl, rfl, rfl, rfl, rfl, rfl⟩
  · exact ⟨rfl, rfl, rfl, rfl, rfl, rfl, rfl, rfl, rfl⟩
  · exact ⟨rfl, rfl, rfl, rfl, rfl, rfl, rfl, rfl, rfl⟩

theorem KeepsHost.hostStep {s t : State} (h : KeepsHost s t) : HostStep s t :=
  ⟨h.params, h.program, .stay h.busy h.op h.pos h.taken⟩

theorem resetEdge_hostStep {lands : Bool} {s t : State} (h : resetEdge lands s = .next t) : HostStep s t := by
  obtain rfl | ⟨-, -, u, hu, rfl⟩ := resetEdge_next h
  · exact ⟨rfl, rfl, .reset rfl rfl rfl rfl⟩
  · have hk := completeRequest_keepsHost hu
    exact ⟨hk.params, hk.program, .reset rfl rfl hk.pos hk.taken⟩

theorem blockEdge_hostStep {e : Edge} {s t : State} (h : blockEdge e s = .next t) : HostStep s t := by
  obtain ⟨-, rfl⟩ | ⟨hrst, rfl | ⟨hv, -, rfl⟩ | ⟨-, -, -, rfl⟩ | ⟨-, -, -, -, hc⟩ | ⟨-, -, -, -, rfl⟩ |
    ⟨-, -, -, hb, -, c, hc, rfl⟩⟩ := blockEdge_next h
  case inl => exact ⟨rfl, rfl, .stay rfl rfl rfl rfl⟩
  · exact ⟨rfl, rfl, .stay rfl rfl rfl rfl⟩
  · exact ⟨rfl, rfl, .take hv rfl rfl rfl rfl⟩
  · exact ⟨rfl, rfl, .stay rfl rfl rfl rfl⟩
  · exact (completeRequest_keepsHost hc).hostStep
  · exact s.act_keepsHost.hostStep
  · exact ⟨rfl, rfl, .accept c hc (by simp [State.cmdReady, hb, hrst]) rfl rfl rfl rfl⟩

theorem clockEdge_hostStep {e : Edge} {s t : State} (h : clockEdge e s = .next t) : HostStep s t := by
  obtain ⟨u, hu, hr | hb⟩ := clockEdge_next h <;> obtain ⟨m, rfl, -⟩ := agentWrites_ok hu
  · exact (resetEdge_hostStep hr.2).of_mem_agenda
  · exact (blockEdge_hostStep hb.2).of_mem_agenda

theorem State.idle_iff (s : State) :
    s.idle = true ↔
      s.busy = false ∧ s.rst = false ∧ s.rspValid = false ∧ s.memReqValid = false ∧ s.memOutstanding = false := by
  simp [State.idle, State.cmdReady, and_assoc]

/-- All a command that runs whole can do: a word that names no operation answers ILLEGAL, any other command its meaning. -/
theorem runCommand_next {c : Command} {s t : State} (h : runCommand c s = .next t) :
    (∃ e, decode (sample s.params c) = .error e ∧
      t = (s.accept (sample s.params c)).respond (failResponse .illegal)) ∨
    ∃ i, decode (sample s.params c) = .ok i ∧ exec i (s.accept (sample s.params c)) = .next t := by
  unfold runCommand at h
  cases hd : decode (sample s.params c) with
  | error e =>
    simp only [hd, Host.Outcome.next.injEq] at h
    exact .inl ⟨e, rfl, h.symm⟩
  | ok i => exact .inr ⟨i, rfl, by simpa [hd] using h⟩

theorem runCommand_hostStep {c : Command} {s t : State} (hs : s.idle = true) (hc : s.presented = some c)
    (h : runCommand c s = .next t) : HostStep s t := by
  obtain ⟨hb, hr, -⟩ := s.idle_iff.mp hs
  have ready : s.cmdReady = true := by simp [State.cmdReady, hb, hr]
  obtain ⟨e, -, rfl⟩ | ⟨i, -, hx⟩ := runCommand_next h
  · exact ⟨rfl, rfl, .accept c hc ready rfl rfl rfl rfl⟩
  · have hk := (exec_completed (by rfl) hx).host
    exact ⟨hk.params, hk.program, .accept c hc ready hk.busy hk.op hk.pos hk.taken⟩

/-- All a step can do: a clock edge, the wait of an idle block without a command, or a command run whole (D27, log 5). -/
theorem step_next {s t : State} (h : step s = .next t) :
    (∃ e l, clockEdge e { s with agenda := l } = .next t) ∨
    (s.idle = true ∧ s.presented = none ∧ t = s) ∨
    (s.idle = true ∧ ∃ c, s.presented = some c ∧ runCommand c s = .next t) := by
  simp only [step, advance] at h
  cases hl : s.agenda with
  | cons e l => exact .inl ⟨e, l, by simpa [hl] using h⟩
  | nil =>
    simp only [hl, undisturbedStep] at h
    split at h
    · rename_i hi
      cases hc : s.presented with
      | none => exact .inr (.inl ⟨hi, rfl, by simpa [hc] using h.symm⟩)
      | some c => exact .inr (.inr ⟨hi, c, rfl, by simpa [hc] using h⟩)
    · exact .inl ⟨Edge.undisturbed, s.agenda, h⟩

theorem step_hostStep {s t : State} (h : step s = .next t) : HostStep s t := by
  obtain ⟨e, l, he⟩ | ⟨-, -, rfl⟩ | ⟨hs, c, hc, hr⟩ := step_next h
  · exact (clockEdge_hostStep he).of_mem_agenda
  · exact ⟨rfl, rfl, .stay rfl rfl rfl rfl⟩
  · exact runCommand_hostStep hs hc hr

end Sys2Proof.Machine
end

section
/-! ## The invariant of the machine (R5, R31 to R36, R47, R49)

One lemma per operation of the block says that it keeps `State.Inv`; a step is one of these operations. -/

namespace Sys2Proof.Machine

theorem sample_fits (p : Params) (c : Command) : (sample p c).fits p = true := by
  simp [Command.fits, operandsFit, sample, Nat.mod_lt]

theorem State.Inv.inSpace {s : State} (h : s.Inv) : s.inSpace :=
  ⟨h.memWf, fun c hc => of_decide_eq_true (h.memSpace c hc), fun x hx => of_decide_eq_true (h.traceSpace x hx)⟩

/-- An idle block that offers nothing satisfies the invariant, whatever its unspecified registers hold (R36). -/
theorem State.Inv.of_idle {s : State} (params : s.params.valid = true) (space : s.inSpace)
    (opFits : s.op.fits s.params = true) (busy : s.busy = false) (rspValid : s.rspValid = false) (port : s.portIdle)
    (memWe : s.memWe = false) : s.Inv where
  params := params
  memWf := space.1
  memSpace c hc := decide_eq_true (space.2.1 c hc)
  opFits := opFits
  rstIdle _ := busy
  idleQuiet _ := ⟨rspValid, port⟩
  idleRead _ := memWe
  responseLast _ := port
  oneRequest _ := port.2
  counter hb := by simp [busy] at hb
  pending hp := by simp [port.1, port.2] at hp
  offered hv := by simp [rspValid] at hv
  traceSpace x hx := decide_eq_true (space.2.2 x hx)

/-- The access a held command asks for comes before the counter reaches 4, at an existing address (R34, R118). -/
theorem State.nextAction_access {s : State} {a : Nat} (h : s.nextAction = .read a ∨ ∃ v, s.nextAction = .write a v) :
    s.k.toNat < 4 ∧ a < 2 ^ s.params.addrw := by
  unfold State.nextAction at h
  split at h
  · simp at h
  · obtain ⟨hk, -, ha⟩ := plan_access h
    exact ⟨hk, ha⟩

theorem State.Inv.busy_of_pending {s : State} (h : s.Inv) (hp : s.memReqValid = true ∨ s.memOutstanding = true) :
    s.busy = true := by
  by_contra hb
  obtain ⟨-, hq, ho⟩ := h.idleQuiet (by simpa using hb)
  simp [hq, ho] at hp

/-- A pending request is one of the first four, at an existing address. -/
theorem State.Inv.pending_access {s : State} (h : s.Inv) (hp : s.memReqValid = true ∨ s.memOutstanding = true) :
    s.k.toNat < 4 ∧ s.memAddr < 2 ^ s.params.addrw := by
  have hn := h.pending hp
  unfold State.pendingAccess at hn
  split at hn
  · exact State.nextAction_access (.inr ⟨_, hn⟩)
  · exact State.nextAction_access (.inl hn)

theorem State.Inv.agentWrites {cs : List Host.Cell} {s t : State} (h : s.Inv) (hw : agentWrites cs s = .ok t) :
    t.Inv := by
  obtain ⟨m, rfl, wf, space, -⟩ := agentWrites_ok hw
  exact { h with memWf := wf h.memWf, memSpace := space h.memSpace }

theorem completeRequest_inSpace {rdata : Option Byte} {s t : State} (h : completeRequest rdata s = .ok t)
    (hs : s.inSpace) : t.inSpace := by
  obtain ⟨ha, ⟨-, rfl⟩ | ⟨-, rfl⟩⟩ := completeRequest_ok h
  · exact afterWrite_inSpace ha hs
  · obtain ⟨wf, cells, trace⟩ := afterRead_inSpace ha hs
    exact ⟨wf, cells, trace⟩

theorem State.resetBlock_inv {s : State} (hp : s.params.valid = true) (hs : s.inSpace) : s.resetBlock.Inv :=
  .of_idle hp hs (sample_fits _ _) rfl rfl ⟨rfl, rfl⟩ rfl

theorem State.Inv.takeResponse {s : State} (h : s.Inv) (hv : s.rspValid = true) : s.takeResponse.Inv :=
  .of_idle h.params h.inSpace (sample_fits _ _) rfl rfl (h.responseLast hv) rfl

theorem State.Inv.dropReset {s : State} (h : s.Inv) : s.dropReset.Inv :=
  { h with rstIdle := fun hr => nomatch hr }

theorem State.Inv.acceptRequest {s : State} (h : s.Inv) (hr : s.rspValid = false) (hq : s.memReqValid = true) :
    s.acceptRequest.Inv :=
  have busy := h.busy_of_pending (.inl hq)
  { h with
    idleQuiet := fun hb => nomatch busy.symm.trans hb
    responseLast := fun hv => nomatch hr.symm.trans hv
    oneRequest := fun hv => nomatch hv
    pending := fun _ => h.pending (.inl hq) }

/-- A completion pulse: the counter goes up by one, the port is idle. -/
theorem State.Inv.completeRequest {rdata : Option Byte} {s t : State} (h : s.Inv) (hr : s.rspValid = false)
    (hq : s.memReqValid = false) (ho : s.memOutstanding = true) (hc : completeRequest rdata s = .ok t) : t.Inv := by
  have busy := h.busy_of_pending (.inr ho)
  have space := completeRequest_inSpace hc h.inSpace
  have counter : (s.k + 1).toNat ≤ 4 := by
    obtain ⟨hk, -⟩ := h.pending_access (.inr ho)
    rw [BitVec.toNat_add]
    simp
    omega
  obtain ⟨-, ⟨-, rfl⟩ | ⟨-, rfl⟩⟩ := completeRequest_ok hc
  all_goals exact
    { h with
      memWf := space.1
      memSpace := fun c hc => decide_eq_true (space.2.1 c hc)
      traceSpace := fun x hx => decide_eq_true (space.2.2 x hx)
      idleQuiet := fun hb => nomatch busy.symm.trans hb
      responseLast := fun hv => nomatch hr.symm.trans hv
      oneRequest := fun hv => nomatch hq.symm.trans hv
      counter := fun _ => counter
      pending := fun hp => hp.elim (fun hv => nomatch hq.symm.trans hv) (fun hv => nomatch hv)
      offered := fun hv => nomatch hr.symm.trans hv }

/-- The response a held command calls for is offered. -/
theorem State.Inv.respond {s : State} {r : Response} (h : s.Inv) (hb : s.busy = true) (hp : s.portIdle)
    (hn : s.nextAction = .respond r) : (s.respond r).Inv :=
  { h with
    idleQuiet := fun hf => nomatch hb.symm.trans hf
    responseLast := fun _ => hp
    offered := fun _ => hn }

/-- A request a held command calls for is raised. -/
theorem State.Inv.raiseRead {s : State} {a : Nat} (h : s.Inv) (hb : s.busy = true) (hr : s.rspValid = false)
    (hp : s.portIdle) (hn : s.nextAction = .read a) : (s.raiseRead a).Inv :=
  { h with
    idleQuiet := fun hf => nomatch hb.symm.trans hf
    idleRead := fun _ => rfl
    responseLast := fun hv => nomatch hr.symm.trans hv
    oneRequest := fun _ => hp.2
    pending := fun _ => hn }

theorem State.Inv.raiseWrite {s : State} {a : Nat} {v : Byte} (h : s.Inv) (hb : s.busy = true)
    (hr : s.rspValid = false) (hp : s.portIdle) (hn : s.nextAction = .write a v) : (s.raiseWrite a v).Inv :=
  { h with
    idleQuiet := fun hf => nomatch hb.symm.trans hf
    idleRead := fun hf => nomatch hb.symm.trans hf
    responseLast := fun hv => nomatch hr.symm.trans hv
    oneRequest := fun _ => hp.2
    pending := fun _ => hn }

theorem State.Inv.act {s : State} (h : s.Inv) (hb : s.busy = true) (hr : s.rspValid = false) (hp : s.portIdle) :
    s.act.Inv := by
  obtain ⟨a, hn, ha⟩ | ⟨a, v, hn, ha⟩ | ⟨r, hn, ha⟩ := s.act_cases <;> rw [ha]
  · exact h.raiseRead hb hr hp hn
  · exact h.raiseWrite hb hr hp hn
  · exact h.respond hb hp hn

theorem State.Inv.accept {s : State} (h : s.Inv) (hrst : s.rst = false) (hb : s.busy = false) (c : Command) :
    (s.accept (sample s.params c)).Inv :=
  have ⟨hr, hq, ho⟩ := h.idleQuiet hb
  { h with
    opFits := sample_fits _ _
    rstIdle := fun hv => nomatch hrst.symm.trans hv
    idleQuiet := fun _ => ⟨hr, hq, ho⟩
    idleRead := fun _ => h.idleRead hb
    counter := fun _ => Nat.zero_le 4
    pending := fun hp => hp.elim (fun hv => nomatch hq.symm.trans hv) (fun hv => nomatch ho.symm.trans hv)
    offered := fun hv => nomatch hr.symm.trans hv }

theorem resetEdge_inv {lands : Bool} {s t : State} (hi : s.Inv) (h : resetEdge lands s = .next t) : t.Inv := by
  obtain rfl | ⟨-, -, u, hu, rfl⟩ := resetEdge_next h
  · exact State.resetBlock_inv hi.params hi.inSpace
  · have hp := (completeRequest_keepsHost hu).params
    exact State.resetBlock_inv (by rw [hp]; exact hi.params) (completeRequest_inSpace hu hi.inSpace)

theorem blockEdge_inv {e : Edge} {s t : State} (hi : s.Inv) (h : blockEdge e s = .next t) : t.Inv := by
  obtain ⟨-, rfl⟩ | ⟨hrst, rfl | ⟨hv, -, rfl⟩ | ⟨hv, hq, -, rfl⟩ | ⟨hv, hq, ho, -, hc⟩ | ⟨hv, hq, ho, hb, rfl⟩ |
    ⟨-, -, -, hb, -, c, -, rfl⟩⟩ := blockEdge_next h
  case inl => exact hi.dropReset
  · exact hi
  · exact hi.takeResponse hv
  · exact hi.acceptRequest hv hq
  · exact hi.completeRequest hv hq ho hc
  · exact hi.act hb hv ⟨hq, ho⟩
  · exact hi.accept hrst hb c

theorem clockEdge_inv {e : Edge} {s t : State} (hi : s.Inv) (h : clockEdge e s = .next t) : t.Inv := by
  obtain ⟨u, hu, ⟨-, hr⟩ | ⟨-, hb⟩⟩ := clockEdge_next h
  · exact resetEdge_inv (hi.agentWrites hu) hr
  · exact blockEdge_inv (hi.agentWrites hu) hb

/-- A meaning run on a held command whose word decodes to it keeps the invariant. -/
theorem exec_inv {i : Instr} {s t : State} (hi : s.Inv) (hb : s.busy = true) (hk : s.k = 0) (hp : s.portIdle)
    (hd : decode s.op = .ok i) (h : exec i s = .next t) : t.Inv := by
  have done := exec_completed hk h
  have host := done.host
  have space := done.inSpace hi.inSpace
  have port := done.portIdle hp
  have busy : t.busy = true := host.busy.trans hb
  exact
    { params := by rw [host.params]; exact hi.params
      memWf := space.1
      memSpace := fun c hc => decide_eq_true (space.2.1 c hc)
      opFits := by rw [host.op, host.params]; exact hi.opFits
      rstIdle := by rw [host.rst, host.busy]; exact hi.rstIdle
      idleQuiet := fun hf => nomatch busy.symm.trans hf
      idleRead := fun hf => nomatch busy.symm.trans hf
      responseLast := fun _ => port
      oneRequest := fun _ => port.2
      counter := fun _ => done.counter
      pending := fun hv => by simp [port.1, port.2] at hv
      offered := fun _ => by simpa [State.nextAction, host.op, hd] using done.planned
      traceSpace := fun x hx => decide_eq_true (space.2.2 x hx) }

theorem runCommand_inv {c : Command} {s t : State} (hi : s.Inv) (hs : s.idle = true)
    (h : runCommand c s = .next t) : t.Inv := by
  obtain ⟨hb, hrst, -, hq, ho⟩ := s.idle_iff.mp hs
  have accepted := hi.accept hrst hb c
  obtain ⟨e, hd, rfl⟩ | ⟨i, hd, hx⟩ := runCommand_next h
  · exact accepted.respond rfl ⟨hq, ho⟩ (by simp [State.nextAction, hd])
  · exact exec_inv accepted rfl rfl ⟨hq, ho⟩ hd hx

theorem step_inv {s t : State} (hi : s.Inv) (h : step s = .next t) : t.Inv := by
  obtain ⟨e, l, he⟩ | ⟨-, -, rfl⟩ | ⟨hs, c, -, hr⟩ := step_next h
  · exact clockEdge_inv (s := { s with agenda := l }) { hi with } he
  · exact hi
  · exact runCommand_inv hi hs hr

/-- Settles O34: each thing a step can do (`step_next`) keeps the invariant. -/
theorem everyStepKeepsTheInvariant : Obligations.EveryStepKeepsTheInvariant :=
  fun _ _ hi h => step_inv hi h

end Sys2Proof.Machine
end

section
/-! ## The host, the ports and reset: the statements that are cases of what one step can do -/

namespace Sys2Proof.Machine

/-- Settles O42: a move of the host's side (`HostStep`) leaves its position or takes the response. -/
theorem hostPositionAdvancesWithEachResponse : Obligations.HostPositionAdvancesWithEachResponse := by
  intro s t h
  obtain ⟨params, program, move⟩ := step_hostStep h
  refine ⟨params, program, ?_⟩
  cases move with
  | stay _ _ pos taken => exact .inl ⟨pos, taken⟩
  | accept _ _ _ _ _ pos taken => exact .inl ⟨pos, taken⟩
  | take offered gone busy pos taken => exact .inr ⟨offered, gone, busy, pos, taken⟩
  | reset _ _ pos taken => exact .inl ⟨pos, taken⟩

/-- Settles O43: of the moves of the host's side, acceptance alone raises `busy`, and only taking the response and reset
lower it. -/
theorem oneCommandAtATime : Obligations.OneCommandAtATime := by
  intro s t h
  cases (step_hostStep h).move with
  | stay busy op _ _ =>
    exact ⟨fun hf ht => (nomatch hf.symm.trans (busy.symm.trans ht)), fun _ _ => op,
      fun ht hf => (nomatch ht.symm.trans (busy.symm.trans hf))⟩
  | accept c presented ready busy op _ _ =>
    have idle : s.busy = false := by
      rw [State.cmdReady, Bool.and_eq_true] at ready
      simpa using ready.1
    simp [presented, ready, busy, op, idle]
  | take offered gone busy _ taken => simp [offered, gone, busy, taken]
  | reset rst busy _ _ => simp [rst, busy]

/-- Settles O32: the reset state is a literal, and its step is the wait of an idle block without a command. -/
theorem resetStateIsIdle : Obligations.ResetStateIsIdle :=
  ⟨rfl, rfl, rfl, rfl, rfl, rfl, rfl, rfl⟩

/-- The reset state stays inside the address space: memory and trace list nothing. -/
theorem State.reset_inSpace : State.reset.inSpace :=
  ⟨by decide, by simp [State.reset], by simp [State.reset]⟩

/-- Settles O33: at reset the block is idle and offers nothing, presented word or not. -/
theorem invariantHoldsAtReset : Obligations.InvariantHoldsAtReset := by
  have valid : State.reset.params.valid = true := by decide
  have fits : State.reset.op.fits State.reset.params = true := by decide
  exact ⟨.of_idle valid State.reset_inSpace fits rfl rfl ⟨rfl, rfl⟩ rfl,
    fun _ _ => .of_idle valid State.reset_inSpace fits rfl rfl ⟨rfl, rfl⟩ rfl⟩

/-- The response port at an edge without reset: taken if the host is ready, else held (R32). -/
theorem blockEdge_offered {e : Edge} {s : State} (hrst : s.rst = false) (hv : s.rspValid = true) :
    blockEdge e s = .next (if e.rspReady then s.takeResponse else s) := by
  simp [blockEdge, hrst, hv]

/-- Settles O41, by the two branches of `blockEdge_offered`. -/
theorem responseIsHeldUntilTaken : Obligations.ResponseIsHeldUntilTaken := by
  refine ⟨fun e s t hv hrst he h => ?_, fun _ => rfl⟩
  obtain ⟨u, hu, ⟨hr, -⟩ | ⟨-, hb⟩⟩ := clockEdge_next h
  · exact nomatch he.symm.trans hr
  obtain ⟨m, rfl, -⟩ := agentWrites_ok hu
  rw [blockEdge_offered (s := { s with mem := m }) hrst hv] at hb
  cases hready : e.rspReady <;> simp only [hready, if_true, if_false, Bool.false_eq_true, Host.Outcome.next.injEq] at hb
  · subst hb
    exact ⟨fun _ => ⟨hv, rfl, rfl, rfl, rfl, rfl⟩, fun hf => nomatch hf⟩
  · subst hb
    exact ⟨fun hf => (nomatch hf), fun _ => ⟨rfl, rfl, rfl, rfl⟩⟩

/-- Memory changed between two states at most as the request on the port says, and only with an access recorded. -/
def WritesOnlyTheRequest (s t : State) : Prop :=
  (∀ a, t.mem.read a = s.mem.read a ∨
    (a = s.memAddr ∧ s.memWe = true ∧ t.mem.read a = s.memWdata ∧ (s.memReqValid = true ∨ s.memOutstanding = true))) ∧
  (t.trace = s.trace → t.mem = s.mem)

theorem WritesOnlyTheRequest.of_mem_eq {s t : State} (h : t.mem = s.mem) : WritesOnlyTheRequest s t :=
  ⟨fun a => .inl (by rw [h]), fun _ => h⟩

/-- The one operation that changes memory: a pending request completed. -/
theorem completeRequest_writesOnlyTheRequest {rdata : Option Byte} {s t : State}
    (hp : s.memReqValid = true ∨ s.memOutstanding = true) (h : completeRequest rdata s = .ok t) :
    WritesOnlyTheRequest s t := by
  obtain ⟨-, ⟨hwe, rfl⟩ | ⟨-, rfl⟩⟩ := completeRequest_ok h
  · refine ⟨fun a => ?_, fun ht => absurd ht (by simp)⟩
    by_cases ha : s.memAddr = a
    · exact .inr ⟨ha.symm, hwe, by simp [ha], hp⟩
    · exact .inl (Memory.read_write_other _ _ ha)
  · exact .of_mem_eq rfl

theorem State.act_mem (s : State) : s.act.mem = s.mem := by
  obtain ⟨a, -, h⟩ | ⟨a, v, -, h⟩ | ⟨r, -, h⟩ := s.act_cases <;> rw [h]
  · exact s.raiseRead_mem a
  · exact s.raiseWrite_mem a v
  · exact s.respond_mem r

theorem resetEdge_writesOnlyTheRequest {lands : Bool} {s t : State} (h : resetEdge lands s = .next t) :
    WritesOnlyTheRequest s t := by
  obtain rfl | ⟨hp, -, u, hu, rfl⟩ := resetEdge_next h
  · exact .of_mem_eq rfl
  · obtain ⟨bytes, trace⟩ := completeRequest_writesOnlyTheRequest hp hu
    exact ⟨bytes, trace⟩

theorem blockEdge_writesOnlyTheRequest {e : Edge} {s t : State} (h : blockEdge e s = .next t) :
    WritesOnlyTheRequest s t := by
  obtain ⟨-, rfl⟩ | ⟨-, rfl | ⟨-, -, rfl⟩ | ⟨-, -, -, rfl⟩ | ⟨-, -, ho, -, hc⟩ | ⟨-, -, -, -, rfl⟩ |
    ⟨-, -, -, -, -, c, -, rfl⟩⟩ := blockEdge_next h
  case inl => exact .of_mem_eq rfl
  · exact .of_mem_eq rfl
  · exact .of_mem_eq rfl
  · exact .of_mem_eq rfl
  · exact completeRequest_writesOnlyTheRequest (.inr ho) hc
  · exact .of_mem_eq s.act_mem
  · exact .of_mem_eq rfl

/-- Settles O40: without other agents, an edge is a reset edge or a move of the block on the state as it was. -/
theorem anEdgeWritesAtMostTheRequestedByte : Obligations.AnEdgeWritesAtMostTheRequestedByte := by
  intro e s t ha h
  obtain ⟨u, hu, hr⟩ := clockEdge_next h
  rw [ha, agentWrites, Except.ok.injEq] at hu
  subst hu
  obtain ⟨-, hr⟩ | ⟨-, hb⟩ := hr
  · exact resetEdge_writesOnlyTheRequest hr
  · exact blockEdge_writesOnlyTheRequest hb

end Sys2Proof.Machine
end

section
/-! ## The outcome as a function of the operands and the pixel's bytes (R20, R65, R147) -/

namespace Sys2Proof.Machine

/-- Two runs of a command on the addresses `addrs` that cannot be told apart: the same response, the same accesses, and
memories that agree there afterwards. -/
def SameOutcome (addrs : List Nat) (s s' : State) (r r' : Result) : Prop :=
  ∃ t t' new, r = .next t ∧ r' = .next t' ∧ t.response = t'.response ∧
    t.trace = s.trace ++ new ∧ t'.trace = s'.trace ++ new ∧ (∀ a ∈ addrs, t.mem.read a = t'.mem.read a)

/-- A response that needs no access. -/
theorem SameOutcome.respond {addrs : List Nat} {s s' : State} (r : Response)
    (hm : ∀ a ∈ addrs, s.mem.read a = s'.mem.read a) :
    SameOutcome addrs s s' (.next (s.respond r)) (.next (s'.respond r)) :=
  ⟨_, _, [], rfl, rfl, rfl, (List.append_nil _).symm, (List.append_nil _).symm, hm⟩

theorem pixelAddrs_aligned {w : Width} {index base : Nat} (hw : w.isSubByte = false) :
    pixelAddrs w index base = (List.range (pixelBytes w)).map (fun j => base + byteOffset w index + j) := by
  simp [pixelAddrs, hw]

theorem pixelAddrs_subByte {w : Width} {index base : Nat} (hw : w.isSubByte = true) :
    pixelAddrs w index base = [base + byteIndex w index] := by
  simp [pixelAddrs, hw]

section
variable {w : Width} {o : DataOrder} {index base len : Nat} {s s' : State}

/-- LOAD reads the pixel's bytes and nothing else (R147). -/
theorem load_sameOutcome (hp : s.params = s'.params)
    (hm : ∀ a ∈ pixelAddrs w index base, s.mem.read a = s'.mem.read a) :
    SameOutcome (pixelAddrs w index base) s s' (load w o index base len s) (load w o index base len s') := by
  cases hd : descOk s.params base len
  · rw [load_illegal hd, load_illegal (hp ▸ hd)]
    exact .respond _ hm
  cases hb : inb w index len
  · rw [load_empty hd hb, load_empty (hp ▸ hd) hb]
    exact .respond _ hm
  cases hw : w.isSubByte
  · rw [load_aligned hw hd hb, load_aligned hw (hp ▸ hd) hb]
    have bytes : ∀ j ∈ List.range (pixelBytes w),
        s.mem.read (base + byteOffset w index + j) = s'.mem.read (base + byteOffset w index + j) := fun j hj =>
      hm _ (by rw [pixelAddrs_aligned hw]; exact List.mem_map_of_mem hj)
    refine ⟨_, _, _, rfl, rfl, by simp [List.map_congr_left bytes], State.afterReads_trace _ _ _,
      State.afterReads_trace _ _ _, fun a ha => ?_⟩
    obtain ⟨-, -, -, -, -, -, -, hs, -⟩ := State.afterReads_frame (pixelBytes w) (base + byteOffset w index) s
    obtain ⟨-, -, -, -, -, -, -, hs', -⟩ := State.afterReads_frame (pixelBytes w) (base + byteOffset w index) s'
    simpa [hs, hs'] using hm a ha
  · rw [load_subByte hw hd hb, load_subByte hw (hp ▸ hd) hb]
    have byte := hm (base + byteIndex w index) (by simp [pixelAddrs_subByte hw])
    exact ⟨_, _, _, rfl, rfl, by simp [byte], rfl, rfl, hm⟩

/-- A STORE writes bytes made of its value and, below a byte, of the pixel's byte (R150). -/
theorem store_sameOutcome {v : BitVec 32} (hp : s.params = s'.params)
    (hm : ∀ a ∈ pixelAddrs w index base, s.mem.read a = s'.mem.read a) :
    SameOutcome (pixelAddrs w index base) s s' (store w o index v base len s) (store w o index v base len s') := by
  cases hd : descOk s.params base len
  · rw [store_illegal hd, store_illegal (hp ▸ hd)]
    exact .respond _ hm
  cases hb : inb w index len
  · rw [store_outOfBounds hd hb, store_outOfBounds (hp ▸ hd) hb]
    exact .respond _ hm
  cases hw : w.isSubByte
  · rw [store_aligned hw hd hb, store_aligned hw (hp ▸ hd) hb]
    refine ⟨_, _, _, rfl, rfl, rfl, State.afterWrites_trace _ _ _, State.afterWrites_trace _ _ _, fun a ha => ?_⟩
    rw [State.respond_mem, State.respond_mem, State.afterWrites_read, State.afterWrites_read, hm a ha]
  · rw [store_subByte hw hd hb, store_subByte hw (hp ▸ hd) hb]
    have byte := hm (base + byteIndex w index) (by simp [pixelAddrs_subByte hw])
    rw [byte]
    refine ⟨_, _, _, rfl, rfl, rfl, List.append_assoc _ _ _, List.append_assoc _ _ _, fun a ha => ?_⟩
    simp [Memory.read_write, hm a ha]

end

/-- Settles O29, by the shape of the instruction. -/
theorem outcomeDependsOnlyOnOperandsAndPixel : Obligations.OutcomeDependsOnlyOnOperandsAndPixel := by
  intro i s s' hp hm
  change SameOutcome (pixelOf i) s s' (exec i s) (exec i s')
  rw [exec_eq_shape, exec_eq_shape]
  unfold pixelOf at hm ⊢
  generalize i.shape = sh at hm ⊢
  cases sh with
  | value op w v => exact .respond _ hm
  | load w o index base len => exact load_sameOutcome hp hm
  | store w o index v base len => exact store_sameOutcome hp hm

end Sys2Proof.Machine
end

section
/-! ## Runs of clock edges without reset: a command access by access (R33, R34, R44, R46)

A command that runs takes three edges for an access: the request is raised, accepted, completed. At the first of them
other agents may have written (R52). -/

namespace Sys2Proof.Machine

/-- A command runs, and nothing is offered on any port: the block decides what it does next (R34). -/
structure State.Deciding (s : State) : Prop where
  rst : s.rst = false
  busy : s.busy = true
  rspValid : s.rspValid = false
  port : s.portIdle

theorem State.Deciding.afterRead {s : State} (h : s.Deciding) (a : Nat) : (s.afterRead a).Deciding :=
  ⟨h.rst, h.busy, h.rspValid, rfl, rfl⟩

theorem State.Deciding.afterWrite {s : State} (h : s.Deciding) (a : Nat) (v : Byte) : (s.afterWrite a v).Deciding :=
  ⟨h.rst, h.busy, h.rspValid, rfl, rfl⟩

theorem State.Deciding.agentWrite {s : State} (h : s.Deciding) (a : Nat) (v : Byte) : (s.agentWrite a v).Deciding :=
  ⟨h.rst, h.busy, h.rspValid, h.port⟩

/-- A command accepted by an idle block begins with no access made. -/
theorem State.accept_deciding {s : State} (h : s.idle = true) (c : Command) : (s.accept c).Deciding := by
  obtain ⟨-, hrst, hv, hq, ho⟩ := s.idle_iff.mp h
  exact ⟨hrst, rfl, hv, hq, ho⟩

/-- A run of edges in two parts. -/
theorem runEdges_append {es fs : List Edge} {s u : State} (h : runEdges es s = .next u) :
    runEdges (es ++ fs) s = runEdges fs u := by
  induction es generalizing s with
  | nil =>
    cases h
    rfl
  | cons e es ih =>
    simp only [List.cons_append, runEdges] at h ⊢
    cases he : clockEdge e s with
    | next t =>
      rw [he] at h
      exact ih h
    | fault f => simp [he] at h
    | refused r => simp [he] at h

theorem runEdges_singleton (e : Edge) (s : State) : runEdges [e] s = clockEdge e s := by
  simp only [runEdges]
  cases clockEdge e s <;> rfl

/-- An edge without reset: the other agents' writes, then the block's move. -/
theorem clockEdge_of_agentWrites {e : Edge} {s u : State} (he : e.rst = false) (h : agentWrites e.agents s = .ok u) :
    clockEdge e s = blockEdge e u := by
  simp [clockEdge, h, he]

/-- An edge at which nothing disturbs the block is the block's move alone. -/
theorem clockEdge_undisturbed (s : State) : clockEdge Edge.undisturbed s = blockEdge Edge.undisturbed s :=
  clockEdge_of_agentWrites rfl rfl

/-- An idle block accepts the presented command (R31, R35). -/
theorem clockEdge_accept {s : State} {c : Command} (hs : s.idle = true) (hc : s.presented = some c) :
    clockEdge Edge.undisturbed s = .next (s.accept (sample s.params c)) := by
  obtain ⟨hb, hrst, hv, hq, ho⟩ := s.idle_iff.mp hs
  rw [clockEdge_undisturbed]
  simp [blockEdge, hb, hrst, hv, hq, ho, hc, Edge.undisturbed]

/-- A deciding block raises its next request or its response. -/
theorem State.Deciding.blockEdge {s : State} (h : s.Deciding) (e : Edge) : blockEdge e s = .next s.act := by
  obtain ⟨hrst, hb, hv, hq, ho⟩ := h
  simp [Machine.blockEdge, hrst, hb, hv, hq, ho]

/-- A request on the port is accepted, then completed (R33). -/
theorem runEdges_request {s : State} (hrst : s.rst = false) (hv : s.rspValid = false) (hq : s.memReqValid = true) :
    runEdges [Edge.undisturbed, Edge.undisturbed] s = ofBus (completeRequest none s.acceptRequest) := by
  have accepted : runEdges [Edge.undisturbed] s = .next s.acceptRequest := by
    rw [runEdges_singleton, clockEdge_undisturbed]
    simp [blockEdge, hrst, hv, hq, Edge.undisturbed]
  rw [← List.singleton_append, runEdges_append accepted, runEdges_singleton, clockEdge_undisturbed]
  simp [blockEdge, hrst, hv, Edge.undisturbed]

/-- At an edge without reset a deciding block raises what it calls for; agents may have written before. -/
theorem runEdges_act {e : Edge} {s u : State} (he : e.rst = false) (hu : agentWrites e.agents s = .ok u)
    (hd : u.Deciding) : runEdges [e] s = .next u.act := by
  rw [runEdges_singleton, clockEdge_of_agentWrites he hu, hd.blockEdge]

/-- Three edges make the read a deciding block calls for; agents may have written before the first. -/
theorem runEdges_read {e : Edge} {s u : State} {a : Nat} (he : e.rst = false) (hu : agentWrites e.agents s = .ok u)
    (hd : u.Deciding) (hn : u.nextAction = .read a) (ha : a < 2 ^ u.params.addrw) :
    runEdges [e, Edge.undisturbed, Edge.undisturbed] s = .next (u.afterRead a) := by
  have raised : runEdges [e] s = .next (u.raiseRead a) := by
    rw [runEdges_act he hu hd, State.act, hn]
  rw [← List.singleton_append, runEdges_append raised,
    runEdges_request (s := u.raiseRead a) hd.rst hd.rspValid rfl]
  simp [completeRequest, addrExists, ha, State.afterRead]

/-- Three edges make the write a deciding block calls for; agents may have written before the first. -/
theorem runEdges_write {e : Edge} {s u : State} {a : Nat} {v : Byte} (he : e.rst = false)
    (hu : agentWrites e.agents s = .ok u) (hd : u.Deciding) (hn : u.nextAction = .write a v)
    (ha : a < 2 ^ u.params.addrw) :
    runEdges [e, Edge.undisturbed, Edge.undisturbed] s = .next (u.afterWrite a v) := by
  have raised : runEdges [e] s = .next (u.raiseWrite a v) := by
    rw [runEdges_act he hu hd, State.act, hn]
  rw [← List.singleton_append, runEdges_append raised,
    runEdges_request (s := u.raiseWrite a v) hd.rst hd.rspValid rfl]
  simp [completeRequest, addrExists, ha, State.afterWrite]

/-- A deciding block offers the response it calls for. -/
theorem runEdges_respond {s : State} {r : Response} (hd : s.Deciding) (hn : s.nextAction = .respond r) :
    runEdges [Edge.undisturbed] s = .next (s.respond r) := by
  rw [runEdges_act rfl rfl hd, State.act, hn]

section
variable {s : State} {w : Width} {o : DataOrder} {index base len : Nat} {v : BitVec 32}

/-- The three decisions of an in-bounds sub-byte STORE: read, write the merged byte, answer (R150, R152). -/
theorem nextAction_store_subByte (hdec : decode s.op = .ok (storeInstr w o index v base len)) (hw : w.isSubByte = true)
    (hd : descOk s.params base len = true) (hb : inb w index len = true) :
    s.nextAction =
      if s.k.toNat = 0 then .read (base + byteIndex w index)
      else if s.k.toNat = 1 then
        .write (base + byteIndex w index) (insertField w (shift w o index) (byteAt s.rd 0) (maskw w v))
      else .respond (okResponse 0 0) := by
  simp [State.nextAction, hdec, storeInstr, shape_ofShape, plan, planStore, hw, hd, hb]

/-- The lost update: another agent writes the byte after the block read it, and the block writes back what it merged into
the byte it read. The latch, which the other agent's write does not reach, holds that byte. -/
theorem runEdges_lostUpdate (hs : s.Deciding) (hk : s.k = 0)
    (hdec : decode s.op = .ok (storeInstr w o index v base len)) (hw : w.isSubByte = true)
    (hd : descOk s.params base len = true) (hb : inb w index len = true) {e : Edge} {x : Byte} (he : e.rst = false)
    (hx : e.agents = [(base + byteIndex w index, x)]) :
    runEdges ([Edge.undisturbed, Edge.undisturbed, Edge.undisturbed] ++
        ([e, Edge.undisturbed, Edge.undisturbed] ++ [Edge.undisturbed])) s =
      .next (((((s.afterRead (base + byteIndex w index)).agentWrite (base + byteIndex w index) x).afterWrite
        (base + byteIndex w index)
        (insertField w (shift w o index) (s.mem.read (base + byteIndex w index)) (maskw w v)))).respond
          (okResponse 0 0)) := by
  have ha := subByte_exists hw hd hb
  have decisions := fun (u : State) (hop : u.op = s.op) (hp : u.params = s.params) =>
    nextAction_store_subByte (s := u) (hop ▸ hdec) hw (hp ▸ hd) hb
  generalize base + byteIndex w index = a at ha hx decisions ⊢
  generalize hm : insertField w (shift w o index) (s.mem.read a) (maskw w v) = merged
  have agent : agentWrites e.agents (s.afterRead a) = .ok ((s.afterRead a).agentWrite a x) := by
    simp [hx, agentWrites, addrExists, ha]
  have hs₂ := (hs.afterRead a).agentWrite a x
  have first : s.nextAction = .read a := by simp [decisions, hk]
  have second : ((s.afterRead a).agentWrite a x).nextAction = .write a merged := by
    rw [decisions ((s.afterRead a).agentWrite a x) (by simp) (by simp)]
    simp [hk, byteAt_setByte, hm]
  have third : (((s.afterRead a).agentWrite a x).afterWrite a merged).nextAction = .respond (okResponse 0 0) := by
    rw [decisions (((s.afterRead a).agentWrite a x).afterWrite a merged) (by simp) (by simp)]
    simp [hk]
  have read := runEdges_read (s := s) (e := Edge.undisturbed) rfl rfl hs first ha
  have write := runEdges_write he agent hs₂ second ha
  have answer := runEdges_respond (hs₂.afterWrite a merged) third
  rw [runEdges_append read, runEdges_append write, answer]

end

/-- Settles O39: the command is accepted, then `runEdges_lostUpdate` tells the rest. -/
theorem writeBetweenReadAndMergeIsLost : Obligations.WriteBetweenReadAndMergeIsLost := by
  intro s c w o index base len v x hs hc hdec hw hdesc hinb
  have accepted : runEdges [Edge.undisturbed] s = .next (s.accept (sample s.params c)) := by
    rw [runEdges_singleton, clockEdge_accept hs hc]
  have run := runEdges_lostUpdate (s := s.accept (sample s.params c)) (x := x)
    (e := ⟨[(base + byteIndex w index, x)], false, false, true, true, true, true, none⟩) (State.accept_deciding hs _) rfl
    hdec hw (decide_eq_true hdesc) (decide_eq_true hinb) rfl rfl
  exact ⟨_, (runEdges_append accepted).trans run, rfl, rfl, Memory.read_write_same _ _ _⟩

end Sys2Proof.Machine
end

section
/-! ## Where the memory port is used (R43, R47, R244) -/

namespace Sys2Proof.Machine

section
variable {w : Width} {o : DataOrder} {index base len : Nat} {s t : State}

/-- The accesses of an in-bounds byte-aligned pixel, one a byte, lie in the buffer (R44, R47). -/
theorem aligned_access_in_buffer (hw : w.isSubByte = false) (hb : inb w index len = true) {f : Nat → Access}
    (hf : ∀ j, (f j).addr = base + byteOffset w index + j) :
    ∀ x ∈ (List.range (pixelBytes w)).map f, base ≤ x.addr ∧ x.addr < base + len := by
  intro x hx
  obtain ⟨j, hj, rfl⟩ := List.mem_map.mp hx
  have := aligned_in_buffer hw hb (List.mem_range.mp hj)
  rw [hf]
  omega

/-- LOAD reads inside its buffer, as often as R244 says, and writes nothing (R47, R147). -/
theorem load_accesses (h : load w o index base len s = .next t) :
    ∃ new, t.trace = s.trace ++ new ∧ (∀ x ∈ new, base ≤ x.addr ∧ x.addr < base + len) ∧ t.mem = s.mem ∧
      new.length = if t.rspStatus = .ok then (if w.isSubByte then 1 else pixelBytes w) else 0 := by
  cases hd : descOk s.params base len
  · cases (load_illegal hd).symm.trans h
    exact ⟨[], by simp⟩
  cases hb : inb w index len
  · cases (load_empty hd hb).symm.trans h
    exact ⟨[], by simp⟩
  cases hw : w.isSubByte
  · cases (load_aligned hw hd hb).symm.trans h
    obtain ⟨-, -, -, -, -, -, -, mem, -⟩ := State.afterReads_frame (pixelBytes w) (base + byteOffset w index) s
    exact ⟨_, State.afterReads_trace _ _ _, aligned_access_in_buffer hw hb fun _ => rfl, mem, by simp⟩
  · cases (load_subByte hw hd hb).symm.trans h
    have := subByte_in_buffer hw hb
    exact ⟨[.read (base + byteIndex w index)], rfl, by simp [Access.addr, this], rfl, by simp⟩

/-- STORE reads and writes inside its buffer, as often as R244 says, and leaves every byte outside as it was (R47). -/
theorem store_accesses {v : BitVec 32} (h : store w o index v base len s = .next t) :
    ∃ new, t.trace = s.trace ++ new ∧ (∀ x ∈ new, base ≤ x.addr ∧ x.addr < base + len) ∧
      (∀ a, ¬ (base ≤ a ∧ a < base + len) → t.mem.read a = s.mem.read a) ∧
      new.length = if t.rspStatus = .ok then (if w.isSubByte then 2 else pixelBytes w) else 0 := by
  cases hd : descOk s.params base len
  · cases (store_illegal hd).symm.trans h
    exact ⟨[], by simp⟩
  cases hb : inb w index len
  · cases (store_outOfBounds hd hb).symm.trans h
    exact ⟨[], by simp⟩
  cases hw : w.isSubByte
  · cases (store_aligned hw hd hb).symm.trans h
    have trace := State.afterWrites_trace (split (pixelBytes w) o (maskw w v)) (base + byteOffset w index) s
    rw [split_length] at trace
    refine ⟨_, trace, aligned_access_in_buffer hw hb fun _ => rfl, fun a ha => ?_, by simp⟩
    rw [State.respond_mem, State.afterWrites_read, split_length, if_neg]
    intro inside
    have := aligned_in_buffer hw hb (j := a - (base + byteOffset w index)) (by omega)
    omega
  · cases (store_subByte hw hd hb).symm.trans h
    have := subByte_in_buffer hw hb
    refine ⟨_, List.append_assoc _ _ _, by simp [Access.addr, this], fun a ha => ?_, by simp⟩
    have other : base + byteIndex w index ≠ a := by omega
    exact Memory.read_write_other _ _ other

end

/-- Settles O30, by the shape of the instruction. -/
theorem accessesStayInTheBuffer : Obligations.AccessesStayInTheBuffer := by
  intro i s t h
  rw [exec_eq_shape] at h
  generalize i.shape = sh at h ⊢
  cases sh with
  | value op w v =>
    cases h
    exact ⟨[], by simp⟩
  | load w o index base len => exact load_accesses h
  | store w o index v base len => exact store_accesses h

/-- Masking is reduction modulo the width (R80). -/
theorem toNat_and_mask (w : Width) (v : BitVec 32) : (v &&& mask w).toNat = v.toNat % 2 ^ bits w := by
  have full : (mask w).toNat = 2 ^ bits w - 1 := by cases w <;> rfl
  rw [BitVec.toNat_and, full, Nat.and_two_pow_sub_one_eq_mod]

/-- A field as a number: the byte divided by the place of its lowest bit, reduced to the width (R132). -/
theorem extractField_toNat (w : Width) (sh : Nat) (b : Byte) :
    (extractField w sh b).toNat = b.toNat / 2 ^ sh % 2 ^ bits w := by
  have small : b.toNat / 2 ^ sh < 2 ^ 32 := (Nat.div_le_self _ _).trans_lt (by omega)
  rw [extractField, toNat_and_mask, BitVec.toNat_setWidth, BitVec.toNat_ushiftRight, Nat.shiftRight_eq_div_pow,
    Nat.mod_eq_of_lt small]

/-- The pixel of one byte is that byte (R131). -/
theorem assemble_singleton_toNat (o : DataOrder) (b : Byte) : (assemble o [b]).toNat = b.toNat := by
  cases o <;> simp [assemble, packBytes] <;> omega

section
variable {s : State} {base len j : Nat}

/-- LOAD.8 at byte offset `j` of the buffer answers that byte (R43, R136). -/
theorem load8_at_byte (o : DataOrder) (hd : base + len ≤ 2 ^ s.params.addrw) (hj : j < len) :
    ∃ t, load .w8 o j base len s = .next t ∧ t.rspStatus = .ok ∧
      t.rspValue.toNat = (s.mem.read (base + j)).toNat := by
  refine ⟨_, load_aligned rfl (decide_eq_true hd) (decide_eq_true (by simp [bits]; omega)), rfl, ?_⟩
  simp [pixelBytes, bits, byteOffset, assemble_singleton_toNat]

/-- LOAD.4 answers a nibble of byte `i / 2` of the buffer, OK (R43, R135, R142). -/
theorem load4_at_byte {o : DataOrder} {i sh : Nat} (hd : base + len ≤ 2 ^ s.params.addrw) (hj : i / 2 = j)
    (hl : j < len) (hs : shift .w4 o i = sh) :
    ∃ t, load .w4 o i base len s = .next t ∧
      t.response = okResponse (extractField .w4 sh (s.mem.read (base + j))) 0 := by
  subst hj hs
  exact ⟨_, load_subByte rfl (decide_eq_true hd) (decide_eq_true (by simp [bits]; omega)), rfl⟩

/-- The shifts of the two nibbles of a byte: the first is the high one under LM, the low one under BL (R115, R116). -/
theorem shift_w4 (j : Nat) :
    shift .w4 .littleEndianMsb0 (2 * j) = 4 ∧ shift .w4 .littleEndianMsb0 (2 * j + 1) = 0 ∧
    shift .w4 .bigEndianLsb0 (2 * j) = 0 ∧ shift .w4 .bigEndianLsb0 (2 * j + 1) = 4 := by
  simp [shift, slot, perByte, bits, Nat.add_mod]

end

/-- Settles O31: the five LOADs read one byte, and LM and BL take its nibbles from opposite ends. -/
theorem mixedWidthViewOfAByte : Obligations.MixedWidthViewOfAByte := by
  intro s base len j hd hj
  obtain ⟨high, low, low', high'⟩ := shift_w4 j
  have first : 2 * j / 2 = j := by omega
  have second : (2 * j + 1) / 2 = j := by omega
  obtain ⟨t, ht, status, value⟩ := load8_at_byte .littleEndianMsb0 hd hj
  obtain ⟨a, ha, ra⟩ := load4_at_byte (s := s) hd first hj high
  obtain ⟨b, hb, rb⟩ := load4_at_byte (s := s) hd second hj low
  obtain ⟨a', ha', ra'⟩ := load4_at_byte (s := s) hd first hj low'
  obtain ⟨b', hb', rb'⟩ := load4_at_byte (s := s) hd second hj high'
  refine ⟨t, a, b, a', b', ht, ha, hb, ha', hb', status, congrArg Response.status ra, congrArg Response.status rb,
    congrArg Response.status ra', congrArg Response.status rb', ?_, ra'.trans rb.symm, rb'.trans ra.symm⟩
  have va : a.rspValue = extractField .w4 4 (s.mem.read (base + j)) := congrArg Response.value ra
  have vb : b.rspValue = extractField .w4 0 (s.mem.read (base + j)) := congrArg Response.value rb
  rw [value, va, vb, extractField_toNat, extractField_toNat]
  simp only [bits]
  omega

end Sys2Proof.Machine
end

section
/-! ## The edge-by-edge run of a command and its one-step run (R44, R46, R49 to R52, R245, D27)

`Answers` is a run of undisturbed edges up to the first offered response; the one-step run of a command is such a run
(`runCommand_answers`), access by access as its plan calls for. -/

namespace Sys2Proof.Machine

section
variable {s : State} (hrst : s.rst = false) (hv : s.rspValid = false)
include hrst hv

/-- An undisturbed edge accepts the request on the port (R33). -/
theorem blockEdge_raised (hq : s.memReqValid = true) : blockEdge Edge.undisturbed s = .next s.acceptRequest := by
  simp [blockEdge, hrst, hv, hq, Edge.undisturbed]

/-- An undisturbed edge completes the outstanding request (R33). -/
theorem blockEdge_outstanding (hq : s.memReqValid = false) (ho : s.memOutstanding = true) :
    blockEdge Edge.undisturbed s = ofBus (completeRequest none s) := by
  simp [blockEdge, hrst, hv, hq, ho, Edge.undisturbed]

/-- An undisturbed edge at an idle block accepts the command the host presents, if there is one (R31, R35). -/
theorem blockEdge_idle (hq : s.memReqValid = false) (ho : s.memOutstanding = false) (hb : s.busy = false) :
    blockEdge Edge.undisturbed s = .next (s.presented.elim s fun c => s.accept (sample s.params c)) := by
  cases hp : s.presented <;> simp [blockEdge, hrst, hv, hq, ho, hb, hp, Edge.undisturbed]

end

/-- `n` undisturbed edges lead from the first state to the second, the first on the way that offers a response, and the
requests completed on the way are to `addrs`. -/
inductive Answers (addrs : List Nat) : Nat → State → State → Prop
  /-- the response is offered -/
  | offered {s : State} (rst : s.rst = false) (rspValid : s.rspValid = true) : Answers addrs 0 s s
  /-- one more edge -/
  | edge {n : Nat} {s u t : State} (rst : s.rst = false) (rspValid : s.rspValid = false)
      (addr : s.memOutstanding = true → s.memAddr ∈ addrs) (next : blockEdge Edge.undisturbed s = .next u)
      (rest : Answers addrs n u t) : Answers addrs (n + 1) s t

/-- `rst` is 0 from the first state of such a run on. -/
theorem Answers.rst {addrs : List Nat} {n : Nat} {s t : State} (h : Answers addrs n s t) : s.rst = false := by
  cases h with
  | offered rst _ => exact rst
  | edge rst _ _ _ _ => exact rst

theorem Answers.runEdges {addrs : List Nat} {n : Nat} {s t : State} (h : Answers addrs n s t) :
    runEdges (List.replicate n Edge.undisturbed) s = .next t ∧ t.rspValid = true := by
  induction h with
  | offered _ rspValid => exact ⟨rfl, rspValid⟩
  | edge _ _ _ next _ ih => simpa [List.replicate_succ, Machine.runEdges, clockEdge_undisturbed, next] using ih

section
variable {addrs : List Nat} {n : Nat} {s u t : State}

/-- A deciding block that calls for its response offers it at the next edge. -/
theorem Answers.respond {r : Response} (hs : s.Deciding) (hn : s.nextAction = .respond r) :
    Answers addrs 1 s (s.respond r) := by
  have answers : Machine.blockEdge Edge.undisturbed s = .next (s.respond r) := by rw [hs.blockEdge, State.act, hn]
  exact .edge hs.rst hs.rspValid (fun ho => nomatch hs.port.2.symm.trans ho) answers (.offered hs.rst rfl)

/-- A raised request is accepted at one edge and completed at the next (R33). -/
theorem Answers.request (hrst : s.rst = false) (hv : s.rspValid = false) (hq : s.memReqValid = true)
    (ho : s.memOutstanding = false) (ha : s.memAddr ∈ addrs)
    (hc : completeRequest none s.acceptRequest = .ok u) (rest : Answers addrs n u t) : Answers addrs (n + 2) s t := by
  have completed : blockEdge Edge.undisturbed s.acceptRequest = .next u := by
    rw [blockEdge_outstanding (s := s.acceptRequest) hrst hv rfl rfl, hc, ofBus_ok]
  exact .edge hrst hv (fun h => nomatch ho.symm.trans h) (blockEdge_raised hrst hv hq)
    (.edge hrst hv (fun _ => ha) completed rest)

/-- A read takes three edges. -/
theorem Answers.read {a : Nat} (hs : s.Deciding) (hn : s.nextAction = .read a) (ha : a ∈ addrs)
    (rest : Answers addrs n (s.afterRead a) t) : Answers addrs (n + 3) s t := by
  obtain ⟨-, space⟩ := State.nextAction_access (.inl hn)
  have raised : Machine.blockEdge Edge.undisturbed s = .next (s.raiseRead a) := by rw [hs.blockEdge, State.act, hn]
  refine .edge hs.rst hs.rspValid (fun ho => nomatch hs.port.2.symm.trans ho) raised
    (.request hs.rst hs.rspValid rfl hs.port.2 ha ?_ rest)
  simp [completeRequest, addrExists, space, State.afterRead]

/-- A write takes three edges. -/
theorem Answers.write {a : Nat} {v : Byte} (hs : s.Deciding) (hn : s.nextAction = .write a v) (ha : a ∈ addrs)
    (rest : Answers addrs n (s.afterWrite a v) t) : Answers addrs (n + 3) s t := by
  obtain ⟨-, space⟩ := State.nextAction_access (.inr ⟨v, hn⟩)
  have raised : Machine.blockEdge Edge.undisturbed s = .next (s.raiseWrite a v) := by rw [hs.blockEdge, State.act, hn]
  refine .edge hs.rst hs.rspValid (fun ho => nomatch hs.port.2.symm.trans ho) raised
    (.request hs.rst hs.rspValid rfl hs.port.2 ha ?_ rest)
  simp [completeRequest, addrExists, space, State.afterWrite]

/-- The reads of ascending addresses, each called for after the ones before it. -/
theorem Answers.reads {m a : Nat} (hs : s.Deciding)
    (hn : ∀ j < m, (s.afterReads j a).nextAction = .read (a + j) ∧ a + j ∈ addrs)
    (rest : Answers addrs n (s.afterReads m a) t) : Answers addrs (n + 3 * m) s t := by
  induction m generalizing a s with
  | zero => exact rest
  | succ m ih =>
    obtain ⟨first, ha⟩ := hn 0 m.succ_pos
    refine .read hs first ha (ih (hs.afterRead a) (fun j hj => ?_) rest)
    have := hn (j + 1) (Nat.succ_lt_succ hj)
    rwa [← Nat.add_assoc, Nat.add_right_comm] at this

/-- The writes of bytes at ascending addresses, each called for after the ones before it. -/
theorem Answers.writes {vs : List Byte} {a : Nat} (hs : s.Deciding)
    (hn : ∀ j (hj : j < vs.length),
      (s.afterWrites (vs.take j) a).nextAction = .write (a + j) vs[j] ∧ a + j ∈ addrs)
    (rest : Answers addrs n (s.afterWrites vs a) t) : Answers addrs (n + 3 * vs.length) s t := by
  induction vs generalizing a s with
  | nil => exact rest
  | cons v vs ih =>
    obtain ⟨first, ha⟩ := hn 0 (Nat.succ_pos _)
    refine .write hs first ha (ih (hs.afterWrite a v) (fun j hj => ?_) rest)
    have := hn (j + 1) (Nat.succ_lt_succ hj)
    rwa [← Nat.add_assoc, Nat.add_right_comm] at this

end

theorem afterReads_deciding {s : State} (hs : s.Deciding) (n a : Nat) : (s.afterReads n a).Deciding := by
  have port := afterReads_portIdle (n := n) (a := a) hs.port
  obtain ⟨-, rst, busy, -, rspValid, -⟩ := State.afterReads_frame n a s
  exact ⟨rst.trans hs.rst, busy.trans hs.busy, rspValid.trans hs.rspValid, port⟩

theorem afterWrites_deciding {s : State} (hs : s.Deciding) (vs : List Byte) (a : Nat) :
    (s.afterWrites vs a).Deciding := by
  have port := afterWrites_portIdle (vs := vs) (a := a) hs.port
  obtain ⟨-, rst, busy, -, -, rspValid, -⟩ := State.afterWrites_frame vs a s
  exact ⟨rst.trans hs.rst, busy.trans hs.busy, rspValid.trans hs.rspValid, port⟩

/-- The meaning of an instruction of a known shape. -/
theorem exec_of_shape {i : Instr} {sh : Shape} (hi : i.shape = sh) (s : State) : exec i s = Shape.exec s sh := by
  rw [exec_eq_shape, hi]

/-- What a held command calls for is its instruction's plan. -/
theorem State.nextAction_of_decode {s : State} {i : Instr} (hdec : decode s.op = .ok i) :
    s.nextAction = plan s.params s.k.toNat s.rd i.shape := by
  simp [State.nextAction, hdec]

/-- Once its accesses are made, a held command calls for the response of its meaning. -/
theorem nextAction_of_exec {i : Instr} {s u : State} {r : Response} (hk : s.k = 0) (hdec : decode s.op = .ok i)
    (h : exec i s = .next (u.respond r)) : u.nextAction = .respond r := by
  have done := exec_completed hk h
  have op : u.op = s.op := done.host.op
  rw [State.nextAction_of_decode (op ▸ hdec)]
  exact done.planned

/-- The run of a meaning: at most 13 undisturbed edges of the pixel's accesses lead to the state it answers. -/
def RunsAsPlanned (i : Instr) (s : State) : Prop :=
  ∃ n t, n ≤ 13 ∧ exec i s = .next t ∧ Answers (pixelOf i) n s t

section
variable {i : Instr} {s : State} {w : Width} {o : DataOrder} {index base len : Nat} {v : BitVec 32}

variable (hs : s.Deciding) (hk : s.k = 0) (hdec : decode s.op = .ok i)
include hs hk hdec

/-- A meaning that makes no access. -/
theorem RunsAsPlanned.respond {r : Response} (h : exec i s = .next (s.respond r)) : RunsAsPlanned i s :=
  ⟨1, _, by omega, h, .respond hs (nextAction_of_exec hk hdec h)⟩

/-- LOAD of a byte-aligned pixel: one read for each byte, in order (R130, R44). -/
theorem load_aligned_runsAsPlanned (hi : i.shape = .load w o index base len) (hw : w.isSubByte = false)
    (hd : descOk s.params base len = true) (hb : inb w index len = true) : RunsAsPlanned i s := by
  have hx := (exec_of_shape hi s).trans (load_aligned hw hd hb)
  have bytes := pixelBytes_le w
  have reads : ∀ j < pixelBytes w, (s.afterReads j (base + byteOffset w index)).nextAction =
      .read (base + byteOffset w index + j) ∧ base + byteOffset w index + j ∈ pixelOf i := fun j hj => by
    have host := afterReads_keepsHost j (base + byteOffset w index) s
    have counter : (s.afterReads j (base + byteOffset w index)).k.toNat = j := by
      simp [State.afterReads_k, hk]
      omega
    refine ⟨?_, by simpa [pixelOf, hi, pixelAddrs_aligned hw] using hj⟩
    rw [State.nextAction_of_decode (host.op ▸ hdec), counter, host.params, hi]
    simp [plan, planLoad, hd, hb, hw, hj]
  exact ⟨_, _, by omega, hx,
    .reads hs reads (.respond (afterReads_deciding hs _ _) (nextAction_of_exec hk hdec hx))⟩

/-- LOAD of a sub-byte pixel: one read (R130). -/
theorem load_subByte_runsAsPlanned (hi : i.shape = .load w o index base len) (hw : w.isSubByte = true)
    (hd : descOk s.params base len = true) (hb : inb w index len = true) : RunsAsPlanned i s := by
  have hx := (exec_of_shape hi s).trans (load_subByte hw hd hb)
  have read : s.nextAction = .read (base + byteIndex w index) := by
    rw [State.nextAction_of_decode hdec, hi]
    simp [plan, planLoad, hd, hb, hw, hk]
  exact ⟨_, _, by omega, hx,
    .read hs read (by simp [pixelOf, hi, pixelAddrs_subByte hw])
      (.respond (hs.afterRead _) (nextAction_of_exec hk hdec hx))⟩

/-- STORE of a byte-aligned pixel: one write for each byte, in order (R150, R44). -/
theorem store_aligned_runsAsPlanned (hi : i.shape = .store w o index v base len) (hw : w.isSubByte = false)
    (hd : descOk s.params base len = true) (hb : inb w index len = true) : RunsAsPlanned i s := by
  have hx := (exec_of_shape hi s).trans (store_aligned hw hd hb)
  have bytes := pixelBytes_le w
  have length := split_length (pixelBytes w) o (maskw w v)
  have writes : ∀ j (hj : j < (split (pixelBytes w) o (maskw w v)).length),
      (s.afterWrites ((split (pixelBytes w) o (maskw w v)).take j) (base + byteOffset w index)).nextAction =
        .write (base + byteOffset w index + j) (split (pixelBytes w) o (maskw w v))[j] ∧
      base + byteOffset w index + j ∈ pixelOf i := fun j hj => by
    have host := afterWrites_keepsHost ((split (pixelBytes w) o (maskw w v)).take j) (base + byteOffset w index) s
    have counter : (s.afterWrites ((split (pixelBytes w) o (maskw w v)).take j)
        (base + byteOffset w index)).k.toNat = j := by
      simp [State.afterWrites_k, hk]
      omega
    refine ⟨?_, by simpa [pixelOf, hi, pixelAddrs_aligned hw, length] using hj⟩
    rw [State.nextAction_of_decode (host.op ▸ hdec), counter, host.params, hi]
    simp [plan, planStore, hd, hb, hw, hj]
  exact ⟨_, _, by omega, hx,
    .writes hs writes (.respond (afterWrites_deciding hs _ _) (nextAction_of_exec hk hdec hx))⟩

/-- STORE of a sub-byte pixel: one read, then one write of the merged byte (R150). -/
theorem store_subByte_runsAsPlanned (hi : i.shape = .store w o index v base len) (hw : w.isSubByte = true)
    (hd : descOk s.params base len = true) (hb : inb w index len = true) : RunsAsPlanned i s := by
  have hx := (exec_of_shape hi s).trans (store_subByte hw hd hb)
  have pixel : base + byteIndex w index ∈ pixelOf i := by simp [pixelOf, hi, pixelAddrs_subByte hw]
  obtain rfl : i = storeInstr w o index v base len := by rw [storeInstr, ← hi, ofShape_shape]
  have read : s.nextAction = .read (base + byteIndex w index) := by
    rw [nextAction_store_subByte hdec hw hd hb]
    simp [hk]
  have write : (s.afterRead (base + byteIndex w index)).nextAction = .write (base + byteIndex w index)
      (insertField w (shift w o index) (s.mem.read (base + byteIndex w index)) (maskw w v)) := by
    rw [nextAction_store_subByte (s := s.afterRead _) hdec hw hd hb]
    simp [hk, byteAt_setByte]
  exact ⟨_, _, by omega, hx,
    .read hs read pixel (.write (hs.afterRead _) write pixel
      (.respond ((hs.afterRead _).afterWrite _ _) (nextAction_of_exec hk hdec hx)))⟩

/-- Every meaning is the run of the accesses its plan calls for (R44, R49). -/
theorem exec_runsAsPlanned : RunsAsPlanned i s := by
  cases hi : i.shape with
  | value op w v => exact .respond hs hk hdec (exec_of_shape hi s)
  | load w o index base len =>
    cases hd : descOk s.params base len
    · exact .respond hs hk hdec ((exec_of_shape hi s).trans (load_illegal hd))
    cases hb : inb w index len
    · exact .respond hs hk hdec ((exec_of_shape hi s).trans (load_empty hd hb))
    cases hw : w.isSubByte
    · exact load_aligned_runsAsPlanned hs hk hdec hi hw hd hb
    · exact load_subByte_runsAsPlanned hs hk hdec hi hw hd hb
  | store w o index v base len =>
    cases hd : descOk s.params base len
    · exact .respond hs hk hdec ((exec_of_shape hi s).trans (store_illegal hd))
    cases hb : inb w index len
    · exact .respond hs hk hdec ((exec_of_shape hi s).trans (store_outOfBounds hd hb))
    cases hw : w.isSubByte
    · exact store_aligned_runsAsPlanned hs hk hdec hi hw hd hb
    · exact store_subByte_runsAsPlanned hs hk hdec hi hw hd hb

end

section
variable {s : State} {c : Command}

/-- An idle block accepts the presented command at the first edge. -/
theorem Answers.accept {addrs : List Nat} {n : Nat} {t : State} (hs : s.idle = true) (hc : s.presented = some c)
    (rest : Answers addrs n (s.accept (sample s.params c)) t) : Answers addrs (n + 1) s t := by
  obtain ⟨-, hrst, hv, -, ho⟩ := s.idle_iff.mp hs
  exact .edge hrst hv (fun h => nomatch ho.symm.trans h) ((clockEdge_undisturbed s).symm.trans (clockEdge_accept hs hc))
    rest

/-- The one-step run of a command with a meaning is a run of at most 14 undisturbed edges, on the pixel's addresses. -/
theorem runCommand_answers {i : Instr} (hs : s.idle = true) (hc : s.presented = some c)
    (hdec : decode (sample s.params c) = .ok i) :
    ∃ n t, n ≤ 14 ∧ runCommand c s = .next t ∧ Answers (pixelOf i) n s t := by
  obtain ⟨n, t, hn, hx, run⟩ := exec_runsAsPlanned (s.accept_deciding hs (sample s.params c)) rfl hdec
  exact ⟨n + 1, t, Nat.succ_le_succ hn, by simpa [runCommand, hdec] using hx, run.accept hs hc⟩

/-- A word that names no operation is answered in two edges without an access (R68). -/
theorem runCommand_answers_illegal {e : IllegalWord} (hs : s.idle = true) (hc : s.presented = some c)
    (hdec : decode (sample s.params c) = .error e) :
    ∃ t, runCommand c s = .next t ∧ Answers [] 2 s t := by
  have called : (s.accept (sample s.params c)).nextAction = .respond (failResponse .illegal) := by
    simp [State.nextAction, hdec]
  exact ⟨_, by simp [runCommand, hdec, State.raise_eq_respond],
    .accept hs hc (.respond (s.accept_deciding hs _) called)⟩

end

/-- Settles O35: the one-step run is a run of undisturbed edges, of a command with a meaning or of an illegal word. -/
theorem edgeByEdgeRunReachesExec : Obligations.EdgeByEdgeRunReachesExec := by
  intro s c hs hc
  cases hdec : decode (sample s.params c) with
  | error e =>
    obtain ⟨t, hr, run⟩ := runCommand_answers_illegal hs hc hdec
    exact ⟨2, t, by omega, hr, run.runEdges.2, run.runEdges.1⟩
  | ok i =>
    obtain ⟨n, t, hn, hr, run⟩ := runCommand_answers hs hc hdec
    exact ⟨n, t, hn, hr, run.runEdges.2, run.runEdges.1⟩

end Sys2Proof.Machine
end

section
/-! ## Waits and other agents' writes (R46, R50 to R52)

A run of disturbed edges follows the undisturbed one: at each edge the block waits, or makes the move the undisturbed edge
makes. Its state differs from the undisturbed one's in memory only, and there only outside the addresses it accesses. -/

namespace Sys2Proof.Machine

/-- The second state is the first but for memory, which reads the same at `addrs`. -/
def AgreesOn (addrs : List Nat) (s w : State) : Prop :=
  ∃ m, w = { s with mem := m } ∧ ∀ a ∈ addrs, m.read a = s.mem.read a

theorem AgreesOn.refl (addrs : List Nat) (s : State) : AgreesOn addrs s s := ⟨s.mem, rfl, fun _ _ => rfl⟩

/-- The other agents' writes of an edge, as memory. -/
theorem agentWrites_eq {e : Edge} {s t : State} (h : agentWrites e.agents s = .ok t) :
    t = { s with mem := outsideWrites [e] s.mem } := by
  simp only [outsideWrites, List.flatMap_cons, List.flatMap_nil, List.append_nil]
  generalize e.agents = cs at h
  induction cs generalizing s with
  | nil =>
    cases h
    rfl
  | cons c cs ih =>
    simp only [agentWrites] at h
    split at h
    · cases h
    · exact ih h

theorem outsideWrites_cons (e : Edge) (es : List Edge) (m : Memory) :
    outsideWrites (e :: es) m = outsideWrites es (outsideWrites [e] m) := by
  simp [outsideWrites]

/-- What the other agents leave at an address depends on what stood there alone. -/
theorem outsideWrites_read_congr {es : List Edge} {m m' : Memory} {a : Nat} (h : m.read a = m'.read a) :
    (outsideWrites es m).read a = (outsideWrites es m').read a := by
  unfold outsideWrites
  induction es.flatMap Edge.agents generalizing m m' with
  | nil => exact h
  | cons c cs ih => exact ih (by simp [Memory.read_write, h])

/-- An address no other agent writes. -/
theorem outsideWrites_read_other {e : Edge} {m : Memory} {a : Nat} (h : ∀ c ∈ e.agents, c.1 ≠ a) :
    (outsideWrites [e] m).read a = m.read a := by
  simp only [outsideWrites, List.flatMap_cons, List.flatMap_nil, List.append_nil]
  generalize e.agents = cs at h
  induction cs generalizing m with
  | nil => rfl
  | cons c cs ih =>
    exact (ih fun d hd => h d (List.mem_cons_of_mem c hd)).trans
      (Memory.read_write_other _ _ (h c List.mem_cons_self))

theorem Edge.avoids_iff {addrs : List Nat} {e : Edge} :
    e.avoids addrs = true ↔
      (∀ c ∈ e.agents, c.1 ∉ addrs) ∧ e.rst = false ∧ e.rspReady = false ∧ e.memRdata = none := by
  simp [Edge.avoids, and_assoc]

theorem AgreesOn.outsideWrites {addrs : List Nat} {e : Edge} {s w : State} (h : AgreesOn addrs s w)
    (he : ∀ c ∈ e.agents, c.1 ∉ addrs) : AgreesOn addrs s { w with mem := outsideWrites [e] w.mem } := by
  obtain ⟨m, rfl, hm⟩ := h
  exact ⟨_, rfl, fun a ha => (outsideWrites_read_other fun c hc hca => he c hc (hca ▸ ha)).trans (hm a ha)⟩

/-- An edge without reset at which the response is not taken: the block waits or makes its undisturbed move. -/
theorem blockEdge_wait_or_move {e : Edge} {s t : State} (hready : e.rspReady = false) (hdata : e.memRdata = none)
    (hrst : s.rst = false) (h : blockEdge e s = .next t) :
    t = s ∨ (s.rspValid = false ∧ blockEdge Edge.undisturbed s = .next t) := by
  obtain ⟨hr, -⟩ | ⟨-, rfl | ⟨-, hr, -⟩ | ⟨hv, hq, -, rfl⟩ | ⟨hv, hq, ho, -, hc⟩ | ⟨hv, hq, ho, hb, rfl⟩ |
    ⟨hv, hq, ho, hb, -, c, hp, rfl⟩⟩ := blockEdge_next h
  · exact nomatch hrst.symm.trans hr
  · exact .inl rfl
  · exact nomatch hready.symm.trans hr
  · exact .inr ⟨hv, blockEdge_raised hrst hv hq⟩
  · rw [hdata] at hc
    exact .inr ⟨hv, by rw [blockEdge_outstanding hrst hv hq ho, hc, ofBus_ok]⟩
  · exact .inr ⟨hv, State.Deciding.blockEdge ⟨hrst, hb, hv, hq, ho⟩ _⟩
  · exact .inr ⟨hv, by rw [blockEdge_idle hrst hv hq ho hb, hp, Option.elim_some]⟩

theorem State.act_withMem (s : State) (m : Memory) : State.act { s with mem := m } = { s.act with mem := m } := by
  have same : State.nextAction { s with mem := m } = s.nextAction := nextAction_congr rfl rfl rfl rfl
  simp only [State.act, same]
  cases s.nextAction <;> rfl

section
variable {addrs : List Nat} {s t w x : State}

/-- A completion pulse on states that agree at the requested address. -/
theorem AgreesOn.completeRequest (h : AgreesOn addrs s w) (ha : s.memAddr ∈ addrs)
    (hs : completeRequest none s = .ok t) (hw : completeRequest none w = .ok x) :
    AgreesOn addrs t x ∧ ∀ a ∉ addrs, x.mem.read a = w.mem.read a := by
  obtain ⟨m, rfl, hm⟩ := h
  obtain ⟨-, ⟨hwe, rfl⟩ | ⟨hwe, rfl⟩⟩ := completeRequest_ok hs <;>
    obtain ⟨-, ⟨hwe', rfl⟩ | ⟨hwe', rfl⟩⟩ := completeRequest_ok hw
  · refine ⟨⟨_, rfl, fun a hin => ?_⟩, fun a hout => ?_⟩
    · simp [Memory.read_write, hm a hin]
    · have other : s.memAddr ≠ a := fun e => hout (e ▸ ha)
      exact Memory.read_write_other m s.memWdata other
  · exact nomatch hwe.symm.trans hwe'
  · exact nomatch hwe'.symm.trans hwe
  · refine ⟨⟨m, ?_, hm⟩, fun _ _ => rfl⟩
    simp [State.completeRead, hm _ ha]

/-- A move at which no request completes neither looks at memory nor changes it. -/
theorem blockEdge_withMem (m : Memory) (hrst : s.rst = false) (hv : s.rspValid = false)
    (hport : s.memReqValid = true ∨ s.memOutstanding = false) (hs : blockEdge Edge.undisturbed s = .next t) :
    t.mem = s.mem ∧ blockEdge Edge.undisturbed { s with mem := m } = .next { t with mem := m } := by
  obtain hq | hq := s.memReqValid.eq_false_or_eq_true
  · cases (blockEdge_raised hrst hv hq).symm.trans hs
    exact ⟨rfl, blockEdge_raised (s := { s with mem := m }) hrst hv hq⟩
  have ho : s.memOutstanding = false := hport.resolve_left (by simp [hq])
  obtain hb | hb := s.busy.eq_false_or_eq_true
  · cases (State.Deciding.blockEdge ⟨hrst, hb, hv, hq, ho⟩ _).symm.trans hs
    rw [State.Deciding.blockEdge (s := { s with mem := m }) ⟨hrst, hb, hv, hq, ho⟩, s.act_withMem m]
    exact ⟨s.act_mem, rfl⟩
  · cases (blockEdge_idle hrst hv hq ho hb).symm.trans hs
    rw [blockEdge_idle (s := { s with mem := m }) hrst hv hq ho hb,
      show State.presented { s with mem := m } = s.presented from rfl]
    cases s.presented <;> exact ⟨rfl, rfl⟩

/-- The undisturbed move of states that agree on the address it may access. -/
theorem AgreesOn.move (h : AgreesOn addrs s w) (hrst : s.rst = false) (hv : s.rspValid = false)
    (ha : s.memOutstanding = true → s.memAddr ∈ addrs) (hs : blockEdge Edge.undisturbed s = .next t)
    (hw : blockEdge Edge.undisturbed w = .next x) :
    AgreesOn addrs t x ∧ ∀ a ∉ addrs, x.mem.read a = w.mem.read a := by
  have agrees := h
  obtain ⟨m, rfl, hm⟩ := h
  by_cases hport : s.memReqValid = true ∨ s.memOutstanding = false
  · obtain ⟨mem, moved⟩ := blockEdge_withMem m hrst hv hport hs
    cases moved.symm.trans hw
    exact ⟨⟨m, rfl, by rwa [mem]⟩, fun _ _ => rfl⟩
  · obtain ⟨hq, ho⟩ : s.memReqValid = false ∧ s.memOutstanding = true := by simpa using hport
    rw [blockEdge_outstanding hrst hv hq ho, ofBus_eq_next] at hs
    rw [blockEdge_outstanding (s := { s with mem := m }) hrst hv hq ho, ofBus_eq_next] at hw
    exact agrees.completeRequest (ha ho) hs hw

end

theorem runEdges_cons_next {e : Edge} {es : List Edge} {s u : State} (h : runEdges (e :: es) s = .next u) :
    ∃ x, clockEdge e s = .next x ∧ runEdges es x = .next u := by
  simp only [runEdges] at h
  split at h
  · exact ⟨_, ‹_›, h⟩
  · cases h
  · cases h

/-- An edge that avoids the addresses: the other agents write, then the block waits or makes its undisturbed move. -/
theorem clockEdge_avoids {addrs : List Nat} {e : Edge} {w x : State} (he : e.avoids addrs = true)
    (hrst : w.rst = false) (h : clockEdge e w = .next x) :
    x = { w with mem := outsideWrites [e] w.mem } ∨
      (w.rspValid = false ∧ blockEdge Edge.undisturbed { w with mem := outsideWrites [e] w.mem } = .next x) := by
  obtain ⟨-, noReset, notTaken, duty⟩ := Edge.avoids_iff.mp he
  obtain ⟨v, hv, ⟨hr, -⟩ | ⟨-, hb⟩⟩ := clockEdge_next h
  · exact nomatch noReset.symm.trans hr
  · cases agentWrites_eq hv
    exact blockEdge_wait_or_move notTaken duty hrst hb

/-- A run of edges that avoid the command's addresses, once it offers a response, has followed the undisturbed run: it
agrees with its last state there, and elsewhere memory is the other agents' (R50 to R52). -/
theorem Answers.follows {addrs : List Nat} {n : Nat} {es : List Edge} {s t w u : State} (run : Answers addrs n s t)
    (agrees : AgreesOn addrs s w) (he : ∀ e ∈ es, e.avoids addrs = true) (hw : Machine.runEdges es w = .next u)
    (hu : u.rspValid = true) :
    AgreesOn addrs t u ∧ ∀ a ∉ addrs, u.mem.read a = (outsideWrites es w.mem).read a := by
  induction es generalizing n s w with
  | nil =>
    cases hw
    cases run with
    | offered _ _ => exact ⟨agrees, fun _ _ => rfl⟩
    | edge _ rspValid _ _ _ =>
      obtain ⟨m, rfl, -⟩ := agrees
      exact nomatch rspValid.symm.trans hu
  | cons e es ih =>
    obtain ⟨x, hx, rest⟩ := runEdges_cons_next hw
    have avoids := he e List.mem_cons_self
    have he' : ∀ f ∈ es, f.avoids addrs = true := fun f hf => he f (List.mem_cons_of_mem e hf)
    have written := agrees.outsideWrites (Edge.avoids_iff.mp avoids).1
    rw [outsideWrites_cons]
    obtain ⟨hrst, hv⟩ : w.rst = s.rst ∧ w.rspValid = s.rspValid := by
      obtain ⟨m, rfl, -⟩ := agrees
      exact ⟨rfl, rfl⟩
    obtain rfl | ⟨silent, moved⟩ := clockEdge_avoids avoids (hrst.trans run.rst) hx
    · exact ih run written he' rest
    · cases run with
      | offered _ rspValid => exact nomatch (hv.symm.trans silent).symm.trans rspValid
      | edge rst rspValid addr next tail =>
        obtain ⟨agrees', outside⟩ := written.move rst rspValid addr next moved
        obtain ⟨final, others⟩ := ih tail agrees' he' rest
        exact ⟨final, fun a ha => (others a ha).trans (outsideWrites_read_congr (outside a ha))⟩

/-- Settles O36: the run follows the undisturbed one, which `runCommand_answers` says is the one-step run. -/
theorem waitingAndOutsideWritersDoNotMatter : Obligations.WaitingAndOutsideWritersDoNotMatter := by
  intro s c i es u hs hc hdec he hr hu
  obtain ⟨n, t, -, ht, run⟩ := runCommand_answers hs hc hdec
  obtain ⟨⟨m, rfl, pixel⟩, others⟩ := run.follows (.refl _ s) he hr hu
  exact ⟨t, ht, rfl, rfl, rfl, rfl, rfl, rfl, ⟨rfl, rfl, rfl, rfl, rfl, rfl, rfl, rfl, rfl⟩, pixel, others⟩

end Sys2Proof.Machine
end

section
/-! ## The decoder and the encoder (R61 to R65, R71)

The decoder takes a control word apart into four fields and the encoder puts one together: `eq_controlWord_iff` says
that these are inverse. The decoder reads each table of R62 to R64 backwards. So `decode_eq_ok_iff` says, for every
command record, which instruction it is. -/

namespace Sys2Proof

/-! ### The fields of a control word -/

theorem opField_toNat (cw : BitVec 16) : (opField cw).toNat = cw.toNat % 16 := by
  simp [opField]

theorem wcodeField_toNat (cw : BitVec 16) : (wcodeField cw).toNat = cw.toNat / 16 % 8 := by
  simp [wcodeField, Nat.shiftRight_eq_div_pow]

theorem reservedField_toNat (cw : BitVec 16) : (reservedField cw).toNat = cw.toNat / 256 := by
  have bound := cw.isLt
  simp only [reservedField, BitVec.extractLsb'_toNat, Nat.shiftRight_eq_div_pow]
  omega

theorem ordField_toNat (cw : BitVec 16) : (ordField cw).toNat = cw.toNat / 128 % 2 := by
  simp only [ordField, BitVec.getLsbD, Nat.testBit_eq_decide_div_mod_eq]
  rcases Nat.mod_two_eq_zero_or_one (cw.toNat / 2 ^ 7) with h | h <;> simp_all

theorem controlWord_toNat (d : BitVec 1) (www : BitVec 3) (pppp : BitVec 4) :
    (controlWord d www pppp).toNat = pppp.toNat + 16 * www.toNat + 128 * d.toNat := by
  unfold controlWord
  rw [BitVec.toNat_append, ← Nat.shiftLeft_add_eq_or_of_lt pppp.isLt, BitVec.toNat_append,
    ← Nat.shiftLeft_add_eq_or_of_lt www.isLt, BitVec.toNat_append, ← Nat.shiftLeft_add_eq_or_of_lt d.isLt]
  simp only [BitVec.toNat_ofNat, Nat.shiftLeft_eq]
  omega

/-- A word is the one assembled from given fields exactly when these are its fields and its reserved bits are 0. -/
theorem eq_controlWord_iff {cw : BitVec 16} {d : BitVec 1} {www : BitVec 3} {pppp : BitVec 4} :
    cw = controlWord d www pppp ↔
      reservedField cw = 0#8 ∧ wcodeField cw = www ∧ opField cw = pppp ∧ BitVec.ofBool (ordField cw) = d := by
  have hcw := cw.isLt
  have hd := d.isLt
  have hwww := www.isLt
  have hpppp := pppp.isLt
  simp only [← BitVec.toNat_inj, controlWord_toNat, reservedField_toNat, wcodeField_toNat, opField_toNat,
    BitVec.toNat_ofBool, ordField_toNat, BitVec.toNat_ofNat, Nat.zero_mod]
  omega

/-! ### The tables of R62 to R64, read backwards -/

theorem decodeWidth_eq_some_iff {x : BitVec 3} {w : Width} : decodeWidth x = some w ↔ x = w.code := by
  revert x
  cases w <;> decide

theorem decodeOrder_eq_iff {b : Bool} {o : DataOrder} : decodeOrder b = o ↔ BitVec.ofBool b = o.code := by
  cases b <;> cases o <;> decide

theorem ofBool_eq_zero_iff {b : Bool} : BitVec.ofBool b = 0#1 ↔ b = false := by
  cases b <;> decide

/-- The seven operation codes, and the nine codes that name no operation (R62, R68 b). -/
theorem operationCode_cases (x : BitVec 4) :
    (∃ op ∈ [ValueOp.new, .fromU32, .intoInner, .toLeBytes, .toBeBytes], x = op.code) ∨ x = 4#4 ∨ x = 5#4 ∨
      x.toNat = 0 ∨ 8 ≤ x.toNat := by
  revert x
  decide

theorem ValueOp.code_inj {op op' : ValueOp} : op.code = op'.code ↔ op = op' := by
  cases op <;> cases op' <;> decide

/-- No value operation shares its code with LOAD, with STORE, or with a code that names no operation. -/
theorem ValueOp.code_separate (op : ValueOp) :
    op.code ≠ 4#4 ∧ op.code ≠ 5#4 ∧ op.code.toNat ≠ 0 ∧ op.code.toNat < 8 := by
  cases op <;> decide

/-! ### The decoder, by the operation field -/

section
variable {w : Width} {c : Command} {sh : Shape}

theorem decodeOperation_value {op : ValueOp} (h : opField c.cw = op.code) :
    decodeOperation w c = decodeValueOp op w c := by
  cases op <;> simp [decodeOperation, h, ValueOp.code]

theorem decodeOperation_load (h : opField c.cw = 4#4) :
    decodeOperation w c = .ok (.load w (decodeOrder (ordField c.cw)) c.index c.base c.len) := by
  simp [decodeOperation, h]

theorem decodeOperation_store (h : opField c.cw = 5#4) :
    decodeOperation w c = .ok (.store w (decodeOrder (ordField c.cw)) c.index c.value c.base c.len) := by
  simp [decodeOperation, h]

theorem decodeOperation_none (h : (opField c.cw).toNat = 0 ∨ 8 ≤ (opField c.cw).toNat) :
    decodeOperation w c = .error .noOperation := by
  unfold decodeOperation
  split
  case h_8 => rfl
  all_goals omega

theorem decodeValueOp_eq_ok_iff {op : ValueOp} :
    decodeValueOp op w c = .ok sh ↔ ordField c.cw = false ∧ sh = .value op w c.value := by
  unfold decodeValueOp
  cases ordField c.cw <;> simp [eq_comm]

/-- What a legal operation field selects (R62, R64, R65). -/
theorem decodeOperation_eq_ok_iff :
    decodeOperation w c = .ok sh ↔
      (∃ op : ValueOp, opField c.cw = op.code ∧ ordField c.cw = false ∧ sh = .value op w c.value) ∨
      (opField c.cw = 4#4 ∧ sh = .load w (decodeOrder (ordField c.cw)) c.index c.base c.len) ∨
      (opField c.cw = 5#4 ∧ sh = .store w (decodeOrder (ordField c.cw)) c.index c.value c.base c.len) := by
  obtain ⟨op, -, h⟩ | h | h | h := operationCode_cases (opField c.cw)
  · obtain ⟨load, store, -, -⟩ := op.code_separate
    rw [decodeOperation_value h, decodeValueOp_eq_ok_iff]
    simp [h, ValueOp.code_inj, load, store]
  · rw [decodeOperation_load h]
    simp [h, @eq_comm _ sh, fun op : ValueOp => op.code_separate.1.symm]
  · rw [decodeOperation_store h]
    simp [h, @eq_comm _ sh, fun op : ValueOp => op.code_separate.2.1.symm]
  · have value (op : ValueOp) : opField c.cw ≠ op.code := fun e => by
      obtain ⟨-, -, zero, small⟩ := op.code_separate
      rw [← e] at zero small
      omega
    have load : opField c.cw ≠ 4#4 := fun e => by simp [e] at h
    have store : opField c.cw ≠ 5#4 := fun e => by simp [e] at h
    simp [decodeOperation_none h, value, load, store]

theorem decodeShape_eq_ok_iff_fields :
    decodeShape c = .ok sh ↔
      reservedField c.cw = 0#8 ∧ ∃ w : Width, wcodeField c.cw = w.code ∧ decodeOperation w c = .ok sh := by
  simp only [← decodeWidth_eq_some_iff]
  unfold decodeShape
  split_ifs with hr
  · simp_all
  · split <;> simp_all

/-- A record is decoded to a shape exactly when it carries the shape's word and the operands the shape reads (R65). -/
theorem decodeShape_eq_ok_iff : decodeShape c = .ok sh ↔ c.cw = sh.encode.cw ∧ sh.readsFrom c = true := by
  rw [decodeShape_eq_ok_iff_fields]
  simp only [decodeOperation_eq_ok_iff]
  cases sh with
  | value op w v =>
    simp [Shape.encode, eq_controlWord_iff, Shape.readsFrom, ofBool_eq_zero_iff, and_assoc, @eq_comm _ v]
  | load w o index base len =>
    simp [Shape.encode, eq_controlWord_iff, Shape.readsFrom, ← decodeOrder_eq_iff, and_assoc, @eq_comm _ o,
      @eq_comm _ index, @eq_comm _ base, @eq_comm _ len]
  | store w o index v base len =>
    simp [Shape.encode, eq_controlWord_iff, Shape.readsFrom, ← decodeOrder_eq_iff, and_assoc, @eq_comm _ o,
      @eq_comm _ index, @eq_comm _ v, @eq_comm _ base, @eq_comm _ len]

end

theorem ofShape_eq_iff {sh : Shape} {i : Instr} : Instr.ofShape sh = i ↔ sh = i.shape := by
  constructor
  · rintro rfl
    exact (Machine.shape_ofShape sh).symm
  · rintro rfl
    exact Machine.ofShape_shape i

theorem decode_eq_ok_iff {c : Command} {i : Instr} :
    decode c = .ok i ↔ c.cw = (encode i).cw ∧ i.shape.readsFrom c = true := by
  rw [encode, ← decodeShape_eq_ok_iff]
  unfold decode
  cases decodeShape c with
  | error e => simp
  | ok sh => simp [ofShape_eq_iff]

/-! ### The encoder -/

theorem Shape.readsFrom_encode (sh : Shape) : sh.readsFrom sh.encode = true := by
  cases sh <;> simp [Shape.readsFrom, Shape.encode]

theorem decode_encode (i : Instr) : decode (encode i) = .ok i :=
  decode_eq_ok_iff.mpr ⟨rfl, i.shape.readsFrom_encode⟩

/-- The operand fields that an instruction ignores are assembled as zero, which fits every port (R71). -/
theorem operandsFit_zero (p : Params) : operandsFit p 0 0 0 = true := by
  simp [operandsFit]

theorem wellFormed_eq_fits_encode (i : Instr) (p : Params) : i.wellFormed p = (encode i).fits p := by
  cases i <;> simp [Instr.wellFormed, encode, Instr.shape, Shape.encode, Command.fits, operandsFit_zero]

/-- Settles O2: a record decodes to an instruction exactly when it carries its word and its operands. -/
theorem decodeAndEncodeAgree : Obligations.DecodeAndEncodeAgree :=
  fun i => ⟨decode_encode i, wellFormed_eq_fits_encode i, fun _ => decode_eq_ok_iff⟩

end Sys2Proof
end

section
/-! ## The legal control words (R68 a to d, R69)

`LegalWord` says on a word's numbers what R69 says; the decoder, the written-out list and the formula are each held to
it. -/

namespace Sys2Proof.Machine

/-- None of the conditions (a) to (d) of R68 holds: no reserved bit, an operation, a width, an order only in LOAD and
STORE. -/
abbrev LegalWord (cw : BitVec 16) : Prop :=
  cw.toNat / 256 = 0 ∧ (1 ≤ cw.toNat % 16 ∧ cw.toNat % 16 ≤ 7) ∧ cw.toNat / 16 % 8 ≠ 7 ∧
    (cw.toNat % 16 = 4 ∨ cw.toNat % 16 = 5 ∨ cw.toNat / 128 % 2 = 0)

/-- The words the encoder assembles, one for each operation, width and order, are in the list. -/
theorem encode_mem_legalControlWords (sh : Shape) : sh.encode.cw ∈ legalControlWords := by
  cases sh <;> simp only [Shape.encode]
  case value op w v => cases op <;> cases w <;> decide
  case load w o index base len => cases w <;> cases o <;> decide
  case store w o index v base len => cases w <;> cases o <;> decide

theorem legalWord_of_mem {cw : BitVec 16} (h : cw ∈ legalControlWords) : LegalWord cw := by
  have all : legalControlWords.all (fun cw => decide (LegalWord cw)) = true := by decide
  exact of_decide_eq_true (List.all_eq_true.mp all cw h)

theorem exists_width_of_code_ne_seven {x : BitVec 3} (h : x.toNat ≠ 7) : ∃ w : Width, x = w.code := by
  simp only [← decodeWidth_eq_some_iff, ← Option.isSome_iff_exists]
  revert x
  decide

/-- A legal word's fields select an operation at a width, whatever the operand fields hold. -/
theorem exists_decodeShape_of_legalWord {c : Command} (h : LegalWord c.cw) : ∃ sh, decodeShape c = .ok sh := by
  obtain ⟨reserved, ⟨hpos, hsmall⟩, hwidth, horder⟩ := h
  rw [← opField_toNat] at hpos hsmall horder
  rw [← wcodeField_toNat] at hwidth
  rw [← ordField_toNat] at horder
  have hreserved : reservedField c.cw = 0#8 := BitVec.eq_of_toNat_eq ((reservedField_toNat _).trans reserved)
  obtain ⟨w, hw⟩ := exists_width_of_code_ne_seven hwidth
  simp only [decodeShape_eq_ok_iff_fields, decodeOperation_eq_ok_iff]
  obtain ⟨op, -, hop⟩ | hop | hop | hop := operationCode_cases (opField c.cw)
  · obtain ⟨load, store, -, -⟩ := op.code_separate
    rw [ne_eq, ← BitVec.toNat_inj] at load store
    have noOrder : ordField c.cw = false := by simp_all
    exact ⟨_, hreserved, w, hw, .inl ⟨op, hop, noOrder, rfl⟩⟩
  · exact ⟨_, hreserved, w, hw, .inr (.inl ⟨hop, rfl⟩)⟩
  · exact ⟨_, hreserved, w, hw, .inr (.inr ⟨hop, rfl⟩)⟩
  · omega

theorem exists_decode_of_legalWord {c : Command} (h : LegalWord c.cw) : ∃ i, decode c = .ok i := by
  obtain ⟨sh, hsh⟩ := exists_decodeShape_of_legalWord h
  exact ⟨Instr.ofShape sh, by simp [decode, hsh]⟩

theorem cw_mem_of_decode {c : Command} {i : Instr} (h : decode c = .ok i) : c.cw ∈ legalControlWords := by
  rw [(decode_eq_ok_iff.mp h).1]
  exact encode_mem_legalControlWords i.shape

theorem exists_decode_iff {c : Command} : (∃ i, decode c = .ok i) ↔ LegalWord c.cw :=
  ⟨fun ⟨_, h⟩ => legalWord_of_mem (cw_mem_of_decode h), exists_decode_of_legalWord⟩

theorem mem_legalControlWords_iff {cw : BitVec 16} : cw ∈ legalControlWords ↔ LegalWord cw := by
  refine ⟨legalWord_of_mem, fun h => ?_⟩
  obtain ⟨i, hi⟩ := exists_decode_of_legalWord (c := ⟨cw, 0, 0, 0, 0⟩) h
  exact cw_mem_of_decode hi

/-- The formula of R69. -/
theorem legalWord_iff_formula {cw : BitVec 16} :
    LegalWord cw ↔
      ∃ op wcode ord : Nat, cw.toNat = op + 16 * wcode + 128 * ord ∧ 1 ≤ op ∧ op ≤ 7 ∧ wcode ≤ 6 ∧ ord ≤ 1 ∧
        (op ≠ 4 → op ≠ 5 → ord = 0) := by
  constructor
  · intro h
    exact ⟨cw.toNat % 16, cw.toNat / 16 % 8, cw.toNat / 128 % 2, by omega⟩
  · rintro ⟨op, wcode, ord, h⟩
    omega

/-- Settles O1: the decoder, the list of R69 and its formula each say `LegalWord`. -/
theorem decoderAcceptsExactlyTheLegalWords : Obligations.DecoderAcceptsExactlyTheLegalWords :=
  ⟨fun _ => exists_decode_iff.trans mem_legalControlWords_iff.symm, by decide, by decide,
    fun _ => mem_legalControlWords_iff.trans legalWord_iff_formula, fun _ _ h => (decode_eq_ok_iff.mp h).1.symm⟩

/-- Settles O3, by evaluation of the decoder on the sample records. -/
theorem sampleWordsDecodeToTheirCommands : Obligations.SampleWordsDecodeToTheirCommands := by
  unfold Obligations.SampleWordsDecodeToTheirCommands
  decide

end Sys2Proof.Machine
end

section
/-! ## One step of an idle block (R31, R73, D27) -/

namespace Sys2Proof.Machine

section
variable {s : State} {c : Command}

theorem step_of_idle (hl : s.agenda = []) (hs : s.idle = true) (hc : s.presented = some c) :
    step s = runCommand c s := by
  simp [step, advance, hl, undisturbedStep, hs, hc]

theorem runCommand_of_ok {i : Instr} (h : decode (sample s.params c) = .ok i) :
    runCommand c s = exec i (s.accept (sample s.params c)) := by
  simp [runCommand, h]

theorem runCommand_of_error {e : IllegalWord} (h : decode (sample s.params c) = .error e) :
    runCommand c s = .next ((s.accept (sample s.params c)).respond (failResponse .illegal)) := by
  simp [runCommand, h, State.raise_eq_respond]

end

theorem step_of_agenda {s : State} {e : Edge} {rest : List Edge} (h : s.agenda = e :: rest) :
    step s = clockEdge e { s with agenda := rest } := by
  simp [step, advance, h]

theorem decodeTableWord_eq_some_iff {nbits w : Nat} {i : Instr} :
    decodeTableWord nbits w = some i ↔ decode (Command.ofTableWord nbits w) = .ok i := by
  unfold decodeTableWord
  cases decode (Command.ofTableWord nbits w) <;> simp

/-- The operand fields of a table row are zero, which every port carries (log 15). -/
theorem sample_ofTableWord (p : Params) (nbits w : Nat) :
    sample p (Command.ofTableWord nbits w) = Command.ofTableWord nbits w := by
  simp [sample, Command.ofTableWord]

theorem step_withFetchWord {s : State} {nbits w : Nat} {i : Instr} (h : decodeTableWord nbits w = some i) :
    step (s.withFetchWord nbits w) = exec i ((s.withFetchWord nbits w).accept (Command.ofTableWord nbits w)) := by
  have decoded := (congrArg decode (sample_ofTableWord s.params nbits w)).trans (decodeTableWord_eq_some_iff.mp h)
  rw [step_of_idle rfl rfl rfl, runCommand_of_ok (by exact decoded)]
  exact congrArg (fun c => exec i ((s.withFetchWord nbits w).accept c)) (sample_ofTableWord s.params nbits w)

/-- Settles O4: the equations of `step` and `runCommand`. -/
theorem stepRunsTheDecodedCommand : Obligations.StepRunsTheDecodedCommand :=
  ⟨fun _ _ _ hl hs hc h => (step_of_idle hl hs hc).trans (runCommand_of_ok h),
    fun _ _ _ hl hs hc h => (step_of_idle hl hs hc).trans (runCommand_of_error h),
    fun _ _ _ h => step_of_agenda h, fun _ _ _ _ h => step_withFetchWord h⟩

end Sys2Proof.Machine
end

section
/-! ## The status of a response (R67, R68, R205)

`exec_answers` says for every instruction and state which status its meaning answers, and that an ILLEGAL answer is the
whole effect; the conditions of R68 are then those on the control word, which negate `LegalWord`, and the one on the
descriptor. -/

namespace Sys2Proof.Machine

theorem Status.isError_iff (st : Status) : st.isError = true ↔ st = .outOfBounds ∨ st = .illegal := by
  cases st <;> decide

theorem respond_illegal_rspErr (s : State) : (s.respond (failResponse .illegal)).rspErr = true :=
  (Status.isError_iff _).mpr (.inr rfl)

/-- The status that the checks of an operation give, in the order of R205: the descriptor, then the bounds. -/
def expectedStatus (p : Params) : Shape → Status
  | .value _ _ _ => .ok
  | .load w _ index base len =>
    if 2 ^ p.addrw < base + len then .illegal else if len * 8 < (index + 1) * bits w then .empty else .ok
  | .store w _ index _ base len =>
    if 2 ^ p.addrw < base + len then .illegal else if len * 8 < (index + 1) * bits w then .outOfBounds else .ok

/-- An offered response of a given status; ILLEGAL has no other effect (R68, R203). -/
structure Answered (st : Status) (s t : State) : Prop where
  offered : t.rspValid = true
  status : t.rspStatus = st
  illegal : st = .illegal → t = s.respond (failResponse .illegal)

theorem descOk_eq_false_iff {p : Params} {base len : Nat} : descOk p base len = false ↔ 2 ^ p.addrw < base + len := by
  simp [descOk]

theorem inb_eq_false_iff {w : Width} {index len : Nat} : inb w index len = false ↔ len * 8 < (index + 1) * bits w := by
  simp [inb]

section
variable {w : Width} {o : DataOrder} {index base len : Nat} {s : State}

theorem load_answers :
    ∃ t, load w o index base len s = .next t ∧ Answered (expectedStatus s.params (.load w o index base len)) s t := by
  simp only [expectedStatus, ← descOk_eq_false_iff, ← inb_eq_false_iff]
  cases hd : descOk s.params base len
  · exact ⟨_, load_illegal hd, rfl, rfl, fun _ => rfl⟩
  cases hb : inb w index len
  · exact ⟨_, load_empty hd hb, rfl, rfl, by simp⟩
  cases hw : w.isSubByte
  · exact ⟨_, load_aligned hw hd hb, rfl, rfl, by simp⟩
  · exact ⟨_, load_subByte hw hd hb, rfl, rfl, by simp⟩

theorem store_answers {v : BitVec 32} :
    ∃ t, store w o index v base len s = .next t ∧
      Answered (expectedStatus s.params (.store w o index v base len)) s t := by
  simp only [expectedStatus, ← descOk_eq_false_iff, ← inb_eq_false_iff]
  cases hd : descOk s.params base len
  · exact ⟨_, store_illegal hd, rfl, rfl, fun _ => rfl⟩
  cases hb : inb w index len
  · exact ⟨_, store_outOfBounds hd hb, rfl, rfl, by simp⟩
  cases hw : w.isSubByte
  · exact ⟨_, store_aligned hw hd hb, rfl, rfl, by simp⟩
  · exact ⟨_, store_subByte hw hd hb, rfl, rfl, by simp⟩

end

theorem valueResponse_status (op : ValueOp) (w : Width) (v : BitVec 32) : (valueResponse op w v).status = .ok := by
  cases op <;> rfl

theorem exec_answers (i : Instr) (s : State) :
    ∃ t, exec i s = .next t ∧ Answered (expectedStatus s.params i.shape) s t := by
  rw [exec_eq_shape]
  cases i.shape with
  | value op w v => exact ⟨_, rfl, rfl, valueResponse_status op w v, by simp [expectedStatus]⟩
  | load w o index base len => exact load_answers
  | store w o index v base len => exact store_answers

theorem exec_status {i : Instr} {s t : State} (h : exec i s = .next t) :
    t.rspStatus = expectedStatus s.params i.shape := by
  obtain ⟨u, hu, answered⟩ := exec_answers i s
  cases hu.symm.trans h
  exact answered.status

/-- Settles O28: each status is what the checks give, and a word that names no operation answers ILLEGAL. -/
theorem statusesEachOperationCanGive : Obligations.StatusesEachOperationCanGive := by
  refine ⟨rfl, rfl, rfl, rfl, fun s => ⟨rfl, s.rspStatus.isError_iff⟩, fun i s t h => ?_,
    fun s c e hl hs hc he => ⟨_, (step_of_idle hl hs hc).trans (runCommand_of_error he), rfl⟩⟩
  have status := exec_status h
  cases hi : i.shape <;> rw [hi] at status <;> exact status

/-! ### The conditions of R68 -/

theorem sample_of_fits {p : Params} {c : Command} (h : c.fits p = true) : sample p c = c := by
  obtain ⟨⟨hindex, hbase⟩, hlen⟩ : (c.index < 2 ^ p.idxw ∧ c.base < 2 ^ p.addrw) ∧ c.len < 2 ^ p.lenw := by
    simpa [Command.fits, operandsFit] using h
  simp [sample, Nat.mod_eq_of_lt, hindex, hbase, hlen]

/-- Conditions (a) to (d) are those on the word, (e) the one on the descriptor of a LOAD or STORE. -/
theorem illegalCommand_iff {p : Params} {c : Command} :
    IllegalCommand p c ↔
      ¬ LegalWord c.cw ∨ ((opField c.cw = 4#4 ∨ opField c.cw = 5#4) ∧ 2 ^ p.addrw < c.base + c.len) := by
  simp only [IllegalCommand, LegalWord, ← BitVec.toNat_inj, opField_toNat, BitVec.toNat_ofNat, List.mem_cons,
    List.not_mem_nil, or_false]
  generalize 2 ^ p.addrw = top
  omega

/-- A word that names no operation is illegal by (a) to (d). -/
theorem illegalCommand_of_error {p : Params} {c : Command} {e : IllegalWord} (h : decode c = .error e) :
    IllegalCommand p c :=
  illegalCommand_iff.mpr (.inl fun legal => by
    obtain ⟨i, hi⟩ := exists_decode_iff.mpr legal
    exact nomatch h.symm.trans hi)

/-- The checks of LOAD and STORE answer ILLEGAL for the descriptor and for nothing else. -/
theorem ite_illegal_iff {beyond outside : Prop} [Decidable beyond] [Decidable outside] {st : Status}
    (h : st ≠ .illegal) :
    (if beyond then Status.illegal else if outside then st else .ok) = .illegal ↔ beyond := by
  split_ifs <;> simp_all

/-- A word that names an operation is illegal only by its descriptor (e). -/
theorem expectedStatus_eq_illegal_iff {p : Params} {c : Command} {i : Instr} (h : decode c = .ok i) :
    expectedStatus p i.shape = .illegal ↔ IllegalCommand p c := by
  have legal : LegalWord c.cw := exists_decode_iff.mp ⟨i, h⟩
  obtain ⟨word, reads⟩ := decode_eq_ok_iff.mp h
  rw [illegalCommand_iff, or_iff_right (not_not_intro legal)]
  rw [encode] at word
  cases hi : i.shape <;> simp only [hi, Shape.encode, eq_controlWord_iff, Shape.readsFrom] at word reads
  case value op w v =>
    obtain ⟨-, -, operation, -⟩ := word
    obtain ⟨load, store, -, -⟩ := op.code_separate
    simp [expectedStatus, operation, load, store]
  case load w o index base len =>
    obtain ⟨-, -, operation, -⟩ := word
    obtain ⟨⟨-, rfl⟩, rfl⟩ : (c.index = index ∧ c.base = base) ∧ c.len = len := by simpa using reads
    exact (ite_illegal_iff (by decide)).trans (by simp [operation])
  case store w o index v base len =>
    obtain ⟨-, -, operation, -⟩ := word
    obtain ⟨⟨-, rfl⟩, rfl⟩ : ((c.index = index ∧ c.value = v) ∧ c.base = base) ∧ c.len = len := by simpa using reads
    exact (ite_illegal_iff (by decide)).trans (by simp [operation])

/-- Settles O5: by the decoder's answer, an illegal word or an instruction whose status `exec_answers` gives. -/
theorem illegalCommandsAnswerIllegal : Obligations.IllegalCommandsAnswerIllegal := by
  intro s c hl hs hc hfits
  have sampled := sample_of_fits hfits
  rw [step_of_idle hl hs hc]
  cases hdec : decode c with
  | error e =>
    have illegal := illegalCommand_of_error (p := s.params) hdec
    refine ⟨_, runCommand_of_error (by rwa [sampled]), rfl, iff_of_true rfl illegal,
      fun _ => ⟨?_, respond_illegal_rspErr _⟩⟩
    rw [sampled]
    rfl
  | ok i =>
    obtain ⟨t, ht, answered⟩ := exec_answers i (s.accept c)
    have illegal := expectedStatus_eq_illegal_iff (p := s.params) hdec
    refine ⟨t, ?_, answered.offered, ?_, fun h => ?_⟩
    · rw [runCommand_of_ok (by rwa [sampled]), sampled, ht]
    · rw [answered.status]
      exact illegal
    · obtain rfl := answered.illegal (illegal.mpr h)
      exact ⟨rfl, respond_illegal_rspErr _⟩

end Sys2Proof.Machine
end

section
/-! ## The masking function and the commands that answer it (R80 to R105)

Masking is reduction modulo the width. NEW and FROM_U32 narrow to the storage integer first, which is never shorter than
the pixel and so changes nothing: `valueResponse` of each of the three operations is the masked value. That their words
decode to them, and that nothing but the response changes, is said once for every value command by
`answersValue_of_response`. -/

namespace Sys2Proof.Machine

/-! ### The masking function -/

section
variable (w : Width) (v : BitVec 32)

theorem mask_toNat : (mask w).toNat = 2 ^ bits w - 1 := by
  cases w <;> rfl

theorem bits_le_storage : bits w ≤ storage w := by
  cases w <;> decide

theorem maskw_toNat : (maskw w v).toNat = v.toNat % 2 ^ bits w :=
  toNat_and_mask w v

theorem maskw_toNat_lt : (maskw w v).toNat < 2 ^ bits w := by
  rw [maskw_toNat]
  exact Nat.mod_lt _ (Nat.two_pow_pos _)

theorem maskw_getLsbD (i : Nat) : (maskw w v).getLsbD i = (decide (i < bits w) && v.getLsbD i) := by
  simp only [BitVec.getLsbD, maskw_toNat, Nat.testBit_mod_two_pow]

theorem maskw_maskw : maskw w (maskw w v) = maskw w v := by
  simp only [maskw, BitVec.and_assoc, BitVec.and_self]

/-- `v[bits-1:0]`, zero-extended to the response port. -/
theorem maskw_eq_lowBits : maskw w v = (v.extractLsb' 0 (bits w)).setWidth 32 := by
  apply BitVec.eq_of_toNat_eq
  have narrow : v.toNat % 2 ^ bits w < 2 ^ 32 := (Nat.mod_le _ _).trans_lt v.isLt
  rw [maskw_toNat, BitVec.toNat_setWidth, BitVec.extractLsb'_toNat, Nat.shiftRight_zero, Nat.mod_eq_of_lt narrow]

end

/-- Settles O11: the clauses are the lemmas above, each for every width and value. -/
theorem maskingIsReductionModuloTheWidth : Obligations.MaskingIsReductionModuloTheWidth :=
  fun w v => ⟨mask_toNat w, rfl, maskw_toNat w v, maskw_toNat_lt w v, maskw_getLsbD w v, maskw_maskw w v⟩

/-! ### The results of NEW, FROM_U32 and INTO_INNER -/

section
variable (w : Width) (v : BitVec 32)

theorem truncStorage_toNat : (truncStorage w v).toNat = v.toNat % 2 ^ storage w := by
  have full : (storageMask w).toNat = 2 ^ storage w - 1 := by cases w <;> rfl
  rw [truncStorage, BitVec.toNat_and, full, Nat.and_two_pow_sub_one_eq_mod]

/-- Narrowing to the storage integer drops no bit that masking keeps (R81, R89). -/
theorem maskw_truncStorage : maskw w (truncStorage w v) = maskw w v := by
  apply BitVec.eq_of_toNat_eq
  rw [maskw_toNat, maskw_toNat, truncStorage_toNat, Nat.mod_mod_of_dvd _ (pow_dvd_pow 2 (bits_le_storage w))]

theorem newValue_eq_maskw : newValue w v = maskw w v := maskw_truncStorage w v

theorem fromU32Value_eq_maskw : fromU32Value w v = maskw w v := maskw_truncStorage w v

theorem intoInnerValue_eq_maskw : intoInnerValue w v = maskw w v := rfl

theorem valueResponse_new : valueResponse .new w v = ⟨.ok, maskw w v, 0⟩ :=
  congrArg (okResponse · 0) (newValue_eq_maskw w v)

theorem valueResponse_fromU32 : valueResponse .fromU32 w v = ⟨.ok, maskw w v, 0⟩ :=
  congrArg (okResponse · 0) (fromU32Value_eq_maskw w v)

theorem valueResponse_intoInner : valueResponse .intoInner w v = ⟨.ok, maskw w v, 0⟩ := rfl

end

/-! ### The value commands -/

/-- The meaning of a value command is its response; nothing else changes. -/
theorem exec_value (op : ValueOp) (w : Width) (v : BitVec 32) (s : State) :
    exec (Instr.ofShape (.value op w v)) s = .next (s.respond (valueResponse op w v)) :=
  exec_of_shape (shape_ofShape _) s

/-- The word of a value command decodes to it whatever the fields it ignores hold (R65). -/
theorem decode_value (op : ValueOp) (w : Width) (v : BitVec 32) (index base len : Nat) :
    decode ⟨(Shape.value op w v).encode.cw, index, v, base, len⟩ = .ok (Instr.ofShape (.value op w v)) :=
  decode_eq_ok_iff.mpr (by simp [encode, shape_ofShape, Shape.readsFrom])

theorem answersValue_of_response {op : ValueOp} {w : Width} {v r : BitVec 32} {n : BitVec 3}
    (h : valueResponse op w v = ⟨.ok, r, n⟩) (s : State) :
    AnswersValue s (Shape.value op w v).encode.cw (Instr.ofShape (.value op w v)) v r n :=
  ⟨decode_value op w v, by rw [exec_value, h]⟩

/-- A value command whose response is the masked value answers the low bits of its operand. -/
theorem answersValue_lowBits {op : ValueOp} {v : BitVec 32} (h : ∀ w, valueResponse op w v = ⟨.ok, maskw w v, 0⟩)
    (s : State) (w : Width) :
    AnswersValue s (Shape.value op w v).encode.cw (Instr.ofShape (.value op w v)) v
      ((v.extractLsb' 0 (bits w)).setWidth 32) 0 :=
  answersValue_of_response (maskw_eq_lowBits w v ▸ h w) s

/-- Settles O6: `answersValue_lowBits` for NEW, at each width of R82 to R88. -/
theorem newKeepsTheLowBits : Obligations.NewKeepsTheLowBits := fun s v =>
  have answers := answersValue_lowBits (valueResponse_new · v) s
  ⟨answers .w1, answers .w2, answers .w4, answers .w8, answers .w16, answers .w24, answers .w32⟩

/-- Settles O7: `answersValue_lowBits` for FROM_U32, at each width of R90 to R96. -/
theorem fromU32KeepsTheLowBits : Obligations.FromU32KeepsTheLowBits := fun s v =>
  have answers := answersValue_lowBits (valueResponse_fromU32 · v) s
  ⟨answers .w1, answers .w2, answers .w4, answers .w8, answers .w16, answers .w24, answers .w32⟩

/-- Settles O8: `answersValue_lowBits` for INTO_INNER, at each width of R98 to R104. -/
theorem intoInnerKeepsTheLowBits : Obligations.IntoInnerKeepsTheLowBits := fun s v =>
  have answers := answersValue_lowBits (valueResponse_intoInner · v) s
  ⟨answers .w1, answers .w2, answers .w4, answers .w8, answers .w16, answers .w24, answers .w32⟩

/-- Settles O12: the three responses are the masked value, and masking twice is masking once. -/
theorem maskedValueOperationsAgree : Obligations.MaskedValueOperationsAgree := by
  intro w w' v s
  refine ⟨?newIsFromU32, ?fromU32IsIntoInner, ?intoInnerOfNew, ?newOfIntoInner, ?conversion⟩
  case newIsFromU32 => rw [exec_value, exec_value, valueResponse_new, valueResponse_fromU32]
  case fromU32IsIntoInner => rw [exec_value, exec_value, valueResponse_fromU32, valueResponse_intoInner]
  case intoInnerOfNew => rw [intoInnerValue_eq_maskw, newValue_eq_maskw, maskw_maskw, maskw]
  case newOfIntoInner => rw [newValue_eq_maskw, intoInnerValue_eq_maskw, maskw_maskw, maskw_maskw]
  case conversion => rw [fromU32Value_eq_maskw, intoInnerValue_eq_maskw, maskw, maskw]

end Sys2Proof.Machine
end

section
/-! ## The address engine (R111 to R121)

The bounds check is stated once as a capacity (`inb_iff_lt_capacity`); its pre-divided forms follow from the relation of
`bits` to `pixelBytes` and to `perByte`. The addresses of an in-bounds pixel lie in the buffer, and a held LOAD or STORE
raises a request only after both checks, at one of these addresses. -/

namespace Sys2Proof.Machine

section
variable {w : Width} {index base len : Nat}

/-! ### The bounds check -/

theorem inb_iff : inb w index len = true ↔ (index + 1) * bits w ≤ len * 8 :=
  decide_eq_true_iff

theorem descOk_iff {p : Params} : descOk p base len = true ↔ base + len ≤ 2 ^ p.addrw :=
  decide_eq_true_iff

theorem bits_pos (w : Width) : 0 < bits w := by
  cases w <;> decide

theorem perByte_pos (hw : w.isSubByte = true) : 0 < perByte w :=
  Nat.pos_of_ne_zero fun none => by simpa [none] using perByte_mul_bits hw

/-- A buffer holds exactly the pixels below its capacity in whole pixels (R121). -/
theorem inb_iff_lt_capacity : inb w index len = true ↔ index < len * 8 / bits w :=
  inb_iff.trans (Nat.le_div_iff_mul_le (bits_pos w)).symm

theorem capacity_aligned (hw : w.isSubByte = false) : len * 8 / bits w = len / pixelBytes w := by
  rw [bits_eq_pixelBytes hw, Nat.mul_comm len, Nat.mul_div_mul_left _ _ (by omega)]

theorem capacity_subByte (hw : w.isSubByte = true) : len * 8 / bits w = len * perByte w := by
  rw [← perByte_mul_bits hw, ← Nat.mul_assoc, Nat.mul_div_cancel _ (bits_pos w)]

theorem inb_iff_aligned (hw : w.isSubByte = false) : inb w index len = true ↔ index < len / pixelBytes w := by
  rw [inb_iff_lt_capacity, capacity_aligned hw]

theorem inb_iff_subByte (hw : w.isSubByte = true) : inb w index len = true ↔ index / perByte w < len := by
  rw [inb_iff_lt_capacity, capacity_subByte hw, Nat.div_lt_iff_lt_mul (perByte_pos hw)]

end

/-- Settles O14: the clauses are the lemmas above. -/
theorem boundsCheckNeedsNoProduct : Obligations.BoundsCheckNeedsNoProduct :=
  fun _ _ _ => ⟨inb_iff, inb_iff_aligned, inb_iff_subByte, inb_iff_lt_capacity⟩

/-! ### The addresses on the memory port -/

section
variable {w : Width} {o : DataOrder} {index base len a : Nat} {v : BitVec 32}

/-- The bytes of an in-bounds pixel are bytes of its buffer (R118). -/
theorem pixelAddrs_in_buffer (hb : inb w index len = true) (ha : a ∈ pixelAddrs w index base) :
    base ≤ a ∧ a < base + len := by
  cases hw : w.isSubByte
  case false =>
    rw [pixelAddrs_aligned hw] at ha
    obtain ⟨j, hj, rfl⟩ := List.mem_map.mp ha
    have := aligned_in_buffer hw hb (List.mem_range.mp hj)
    omega
  case true =>
    rw [pixelAddrs_subByte hw, List.mem_singleton] at ha
    have := subByte_in_buffer hw hb
    omega

/-- A legal buffer lies below the top of the address space, so its addresses do not wrap around (R118, R119). -/
theorem pixelAddrs_in_space {p : Params} (hd : descOk p base len = true) (hb : inb w index len = true)
    (ha : a ∈ pixelAddrs w index base) : base ≤ a ∧ a < base + len ∧ a < 2 ^ p.addrw := by
  obtain ⟨lower, upper⟩ := pixelAddrs_in_buffer hb ha
  exact ⟨lower, upper, upper.trans_le (descOk_iff.mp hd)⟩

theorem pixelOf_loadInstr : pixelOf (loadInstr w o index base len) = pixelAddrs w index base := by
  simp [pixelOf, loadInstr, shape_ofShape]

theorem pixelOf_storeInstr : pixelOf (storeInstr w o index v base len) = pixelAddrs w index base := by
  simp [pixelOf, storeInstr, shape_ofShape]

/-- LOAD and STORE access memory only after the descriptor and the bounds checks pass (R130, R150). -/
theorem checks_of_plan_access {p : Params} {k : Nat} {rd : BitVec 32} {i : Instr}
    (hi : i = loadInstr w o index base len ∨ i = storeInstr w o index v base len)
    (h : plan p k rd i.shape = .read a ∨ ∃ b, plan p k rd i.shape = .write a b) :
    descOk p base len = true ∧ inb w index len = true := by
  rcases hi with rfl | rfl
  · simp only [loadInstr, shape_ofShape, plan_load_write, exists_false, or_false] at h
    obtain ⟨hd, hb, -⟩ := plan_load_read h
    exact ⟨hd, hb⟩
  · rw [storeInstr, shape_ofShape] at h
    rcases h with h | ⟨b, h⟩
    · obtain ⟨hd, hb, -⟩ := plan_store_read h
      exact ⟨hd, hb⟩
    · obtain ⟨hd, hb, -⟩ := plan_store_write h
      exact ⟨hd, hb⟩

/-- Every request a held LOAD or STORE can raise is for a byte of its pixel, whatever the counter and the latch hold. -/
theorem nextAction_access_in_pixel {s : State} {i : Instr} (hdec : decode s.op = .ok i)
    (hi : i = loadInstr w o index base len ∨ i = storeInstr w o index v base len)
    (h : s.nextAction = .read a ∨ ∃ b, s.nextAction = .write a b) :
    a ∈ pixelAddrs w index base ∧ base ≤ a ∧ a < base + len ∧ a < 2 ^ s.params.addrw := by
  rw [State.nextAction_of_decode hdec] at h
  obtain ⟨hd, hb⟩ := checks_of_plan_access hi h
  obtain ⟨-, mem, -⟩ := plan_access h
  have pixel : pixelOf i = pixelAddrs w index base := by
    rcases hi with rfl | rfl
    · exact pixelOf_loadInstr
    · exact pixelOf_storeInstr
  rw [pixel] at mem
  exact ⟨mem, pixelAddrs_in_space hd hb mem⟩

end

/-- Settles O16: the addresses written out, their range, and `nextAction_access_in_pixel` for the port. -/
theorem pixelAddressesStayInTheBuffer : Obligations.PixelAddressesStayInTheBuffer := by
  intro p w index base len
  refine ⟨fun hw => ?aligned, pixelAddrs_subByte, fun hd hb a ha => pixelAddrs_in_space hd hb ha, ?port⟩
  case aligned => simp only [pixelAddrs_aligned hw, byteOffset, pixelBytes, Nat.add_assoc]
  case port =>
    rintro _ _ _ _ hdec rfl hi _ h
    exact nextAction_access_in_pixel hdec hi h

/-! ### The slot and the shift of a sub-byte pixel -/

theorem slot_lt_perByte {w : Width} (hw : w.isSubByte = true) (index : Nat) : slot w index < perByte w :=
  Nat.mod_lt _ (perByte_pos hw)

theorem slot_slot (w : Width) (index : Nat) : slot w (slot w index) = slot w index :=
  Nat.mod_mod _ _

/-- The shift depends on the index through its slot alone (R115, R116). -/
theorem shift_slot (w : Width) (o : DataOrder) (index : Nat) : shift w o (slot w index) = shift w o index := by
  cases o <;> simp only [shift, slot_slot]

/-- Settles O15: the rows by evaluation, and every index has the shift of its slot. -/
theorem shiftAndFieldMaskTable : Obligations.ShiftAndFieldMaskTable :=
  ⟨rfl, rfl, rfl, fun w o index hw => ⟨slot_lt_perByte hw index, (shift_slot w o index).symm⟩⟩

end Sys2Proof.Machine
end

section
/-! ## LOAD (R130 to R147)

An in-bounds LOAD is a run of reads of its pixel's addresses and the response `loadValue` (`load_inBounds`);
`loads_loadInstr` says so in the form of the rules, for every width and order, and the fourteen commands are its
cases. -/

namespace Sys2Proof.Machine

/-! ### The bytes and the field a LOAD answers -/

/-- One more byte below a packed sequence (R131). -/
theorem packBytes_cons {n : Nat} {x : BitVec n} {es : List Byte} (h : packBytes es = x.setWidth 32) (e : Byte) :
    packBytes (e :: es) = (x ++ e).setWidth 32 := by
  ext i hi
  rw [packBytes, h]
  by_cases low : i < 8
  · simp [BitVec.getElem_setWidth, BitVec.getLsbD_append, low]
  · have beyond : e.getLsbD i = false := BitVec.getLsbD_of_ge e i (Nat.le_of_not_lt low)
    simp [BitVec.getElem_setWidth, BitVec.getLsbD_append, low, beyond]

theorem packBytes_one (a : Byte) : packBytes [a] = a.setWidth 32 := by
  simp [packBytes]

theorem packBytes_two (a b : Byte) : packBytes [a, b] = (b ++ a).setWidth 32 :=
  packBytes_cons (packBytes_one b) a

theorem packBytes_four (a b c d : Byte) : packBytes [a, b, c, d] = d ++ c ++ b ++ a :=
  (packBytes_cons (packBytes_cons (packBytes_two c d) b) a).trans (BitVec.setWidth_eq _)

/-- Three bytes leave the top lane 0. -/
theorem packBytes_three (a b c : Byte) : packBytes [a, b, c] = 0x00#8 ++ c ++ b ++ a :=
  packBytes_four a b c 0x00

/-- The field of a sub-byte pixel, masked in its byte (R132). -/
theorem extractField_eq_setWidth {w : Width} (hw : w.isSubByte = true) (sh : Nat) (b : Byte) :
    extractField w sh b = ((b >>> sh) &&& (mask w).setWidth 8).setWidth 32 := by
  have wide : ((mask w).setWidth 8).setWidth 32 = mask w := by
    revert hw
    cases w <;> decide
  rw [extractField, BitVec.setWidth_and, wide]

/-- The value an in-bounds LOAD answers, from memory (R130). -/
def loadValue (w : Width) (o : DataOrder) (index base : Nat) (m : Memory) : BitVec 32 :=
  if w.isSubByte then extractField w (shift w o index) (m.read (base + byteIndex w index))
  else assemble o ((pixelAddrs w index base).map m.read)

section
variable {w : Width} {o : DataOrder} {index base : Nat} {m : Memory}

theorem loadValue_subByte (hw : w.isSubByte = true) :
    loadValue w o index base m = extractField w (shift w o index) (m.read (base + byteIndex w index)) := by
  simp [loadValue, hw]

theorem loadValue_aligned (hw : w.isSubByte = false) :
    loadValue w o index base m = assemble o ((pixelAddrs w index base).map m.read) := by
  simp [loadValue, hw]

end

/-! ### The meaning of LOAD -/

theorem KeepsHost.respond {s t : State} (h : KeepsHost s t) (r : Response) : KeepsHost s (t.respond r) := { h with }

theorem PortAfter.respond {s t : State} {count addr : Nat} (h : PortAfter s t count addr) (r : Response) :
    PortAfter s (t.respond r) count addr := { h with }

/-- The memory port after a run of reads (R33; logs 7 and 20). -/
theorem afterReads_portAfter (n a : Nat) (s : State) : PortAfter s (s.afterReads (n + 1) a) (n + 1) (a + n) := by
  obtain ⟨request, outstanding, -, address⟩ := State.afterReads_port n a s
  exact ⟨State.afterReads_k _ _ _, request, outstanding, address⟩

section
variable {w : Width} {o : DataOrder} {index base len : Nat} {s t : State}

/-- The word of a LOAD decodes to it whatever `value` holds (R65). -/
theorem decode_load (v : BitVec 32) :
    decode ⟨(Shape.load w o index base len).encode.cw, index, v, base, len⟩ = .ok (loadInstr w o index base len) :=
  decode_eq_ok_iff.mpr (by simp [encode, loadInstr, shape_ofShape, Shape.readsFrom])

theorem exec_loadInstr : exec (loadInstr w o index base len) s = load w o index base len s :=
  exec_of_shape (shape_ofShape _) s

theorem pixelBytes_pos (hw : w.isSubByte = false) : 0 < pixelBytes w := by
  have pos := bits_pos w
  rw [bits_eq_pixelBytes hw] at pos
  omega

/-- An in-bounds LOAD reads its pixel's addresses, which ascend from the first, and answers (R130). -/
theorem load_inBounds (hd : descOk s.params base len = true) (hb : inb w index len = true) :
    ∃ a n, pixelAddrs w index base = (List.range (n + 1)).map (a + ·) ∧
      load w o index base len s =
        .next ((s.afterReads (n + 1) a).respond (okResponse (loadValue w o index base s.mem) 0)) := by
  cases hw : w.isSubByte
  case false =>
    have bytes : pixelBytes w - 1 + 1 = pixelBytes w := Nat.sub_add_cancel (pixelBytes_pos hw)
    refine ⟨base + byteOffset w index, pixelBytes w - 1, ?_, ?_⟩ <;> rw [bytes]
    · exact pixelAddrs_aligned hw
    · rw [load_aligned hw hd hb, loadValue_aligned hw, pixelAddrs_aligned hw, List.map_map, Function.comp_def]
  case true =>
    refine ⟨base + byteIndex w index, 0, pixelAddrs_subByte hw, ?_⟩
    rw [load_subByte hw hd hb, loadValue_subByte hw]
    rfl

/-- The rule of LOAD for every width and order (R130). -/
theorem loads_loadInstr :
    Loads s (Shape.load w o index base len).encode.cw (loadInstr w o index base len) (bits w) index base len
      (pixelAddrs w index base) (loadValue w o index base s.mem) := by
  refine ⟨decode_load, fun h => ?illegal, fun hd h => ?empty, fun hd hb => ?ok⟩ <;> rw [exec_loadInstr]
  case illegal => exact load_illegal (descOk_eq_false_iff.mpr h)
  case empty => exact load_empty (descOk_iff.mpr hd) (inb_eq_false_iff.mpr h)
  case ok =>
    obtain ⟨a, n, addrs, h⟩ := load_inBounds (o := o) (s := s) (descOk_iff.mpr hd) (inb_iff.mpr hb)
    obtain ⟨-, -, -, -, -, -, memWdata, mem, -⟩ := State.afterReads_frame (n + 1) a s
    obtain ⟨-, -, memWe, -⟩ := State.afterReads_port n a s
    have length : (pixelAddrs w index base).length = n + 1 := by simp [addrs]
    have last : (pixelAddrs w index base).getLast?.getD 0 = a + n := by simp [addrs, List.range_succ]
    refine ⟨_, h, rfl, rfl, mem, ?trace, (afterReads_keepsHost _ _ _).respond _, ?port, memWe, memWdata⟩
    case trace => simp [addrs, State.afterReads_trace]
    case port =>
      rw [length, last]
      exact (afterReads_portAfter n a s).respond _

/-- A LOAD reads its pixel if it answers OK, and nothing otherwise (R130, R206). -/
theorem load_trace (h : load w o index base len s = .next t) :
    t.trace = s.trace ++ if t.rspStatus = .ok then (pixelAddrs w index base).map .read else [] := by
  cases hd : descOk s.params base len
  · cases (load_illegal hd).symm.trans h
    simp
  cases hb : inb w index len
  · cases (load_empty hd hb).symm.trans h
    simp
  · obtain ⟨a, n, addrs, hn⟩ := load_inBounds (o := o) hd hb
    cases hn.symm.trans h
    simp [addrs, State.afterReads_trace]

end

/-! ### In bounds, as a number of bytes (R112, R117) -/

section
variable {w : Width} {index len : Nat}

theorem bounds_subByte (hw : w.isSubByte = true) : (index + 1) * bits w ≤ len * 8 ↔ index / perByte w < len :=
  inb_iff.symm.trans (inb_iff_subByte hw)

theorem bounds_aligned (hw : w.isSubByte = false) : (index + 1) * bits w ≤ len * 8 ↔ index < len / pixelBytes w :=
  inb_iff.symm.trans (inb_iff_aligned hw)

end

/-! ### The six sub-byte LOADs -/

/-- The shifts of R120, in the form of the rules R133 to R135 and R140 to R142. -/
theorem shift_subByte (index : Nat) :
    shift .w1 .littleEndianMsb0 index = 7 - index % 8 ∧ shift .w2 .littleEndianMsb0 index = 6 - 2 * (index % 4) ∧
    shift .w4 .littleEndianMsb0 index = 4 - 4 * (index % 2) ∧ shift .w1 .bigEndianLsb0 index = index % 8 ∧
    shift .w2 .bigEndianLsb0 index = 2 * (index % 4) ∧ shift .w4 .bigEndianLsb0 index = 4 * (index % 2) := by
  simp [shift, slot, perByte, bits, Nat.mul_comm]

/-- A sub-byte LOAD whose shift is known (R133 to R135, R140 to R142). -/
theorem loads_subByte {w : Width} {o : DataOrder} {index sh : Nat} (hw : w.isSubByte = true)
    (hs : shift w o index = sh) (base len : Nat) (s : State) :
    Loads s (Shape.load w o index base len).encode.cw (loadInstr w o index base len) (bits w) index base len
      [base + index / perByte w]
      (((s.mem.read (base + index / perByte w) >>> sh) &&& (mask w).setWidth 8).setWidth 32) := by
  have rule := loads_loadInstr (w := w) (o := o) (index := index) (base := base) (len := len) (s := s)
  rwa [loadValue_subByte hw, pixelAddrs_subByte hw, hs, extractField_eq_setWidth hw] at rule

/-- Settles O19: `loads_subByte` at each width and order, with its shift from the table. -/
theorem subByteLoadsExtractTheField : Obligations.SubByteLoadsExtractTheField := by
  intro s index base len
  obtain ⟨lm1, lm2, lm4, bl1, bl2, bl4⟩ := shift_subByte index
  exact ⟨loads_subByte rfl lm1 base len s, loads_subByte rfl lm2 base len s, loads_subByte rfl lm4 base len s,
    loads_subByte rfl bl1 base len s, loads_subByte rfl bl2 base len s, loads_subByte rfl bl4 base len s,
    bounds_subByte (w := .w1) rfl, bounds_subByte (w := .w2) rfl, bounds_subByte (w := .w4) rfl⟩

/-! ### The eight byte-aligned LOADs -/

/-- A byte-aligned LOAD: its addresses from the first of them, and the bytes read there assembled (R136 to R139, R143 to
R146). -/
theorem loads_aligned {w : Width} {o : DataOrder} {index base len first : Nat} {r : BitVec 32} {s : State}
    (hw : w.isSubByte = false) (hf : first = base + pixelBytes w * index)
    (hr : assemble o ((List.range (pixelBytes w)).map fun j => s.mem.read (first + j)) = r) :
    Loads s (Shape.load w o index base len).encode.cw (loadInstr w o index base len) (bits w) index base len
      ((List.range (pixelBytes w)).map (first + ·)) r := by
  have rule := loads_loadInstr (w := w) (o := o) (index := index) (base := base) (len := len) (s := s)
  rwa [loadValue_aligned hw, pixelAddrs_aligned hw, byteOffset, Nat.mul_comm index, ← hf, List.map_map,
    Function.comp_def, hr] at rule

/-- Settles O20: `loads_aligned` at each width, the bytes packed in the order they are read. -/
theorem littleEndianLoadsAssembleBytes : Obligations.LittleEndianLoadsAssembleBytes := by
  intro s index base len
  exact ⟨loads_aligned (w := .w8) (o := .littleEndianMsb0) rfl (by simp [pixelBytes, bits]) (packBytes_one _),
    loads_aligned (w := .w16) (o := .littleEndianMsb0) rfl rfl (packBytes_two _ _),
    loads_aligned (w := .w24) (o := .littleEndianMsb0) rfl rfl (packBytes_three _ _ _),
    loads_aligned (w := .w32) (o := .littleEndianMsb0) rfl rfl (packBytes_four _ _ _ _),
    bounds_aligned (w := .w8) rfl, bounds_aligned (w := .w16) rfl, bounds_aligned (w := .w24) rfl,
    bounds_aligned (w := .w32) rfl⟩

/-- Settles O21: `loads_aligned` at each width, the bytes packed in the reverse of the order they are read. -/
theorem bigEndianLoadsAssembleBytes : Obligations.BigEndianLoadsAssembleBytes := by
  intro s index base len
  exact ⟨loads_aligned (w := .w8) (o := .bigEndianLsb0) rfl (by simp [pixelBytes, bits]) (packBytes_one _),
    loads_aligned (w := .w16) (o := .bigEndianLsb0) rfl rfl (packBytes_two _ _),
    loads_aligned (w := .w24) (o := .bigEndianLsb0) rfl rfl (packBytes_three _ _ _),
    loads_aligned (w := .w32) (o := .bigEndianLsb0) rfl rfl (packBytes_four _ _ _ _),
    bounds_aligned (w := .w8) rfl, bounds_aligned (w := .w16) rfl, bounds_aligned (w := .w24) rfl,
    bounds_aligned (w := .w32) rfl⟩

/-! ### A LOAD and its effects (R20, R147) -/

/-- With nothing disturbing the block, an offered response is taken (R32). -/
theorem step_of_offered {s : State} (hl : s.agenda = []) (hrst : s.rst = false) (hv : s.rspValid = true) :
    step s = .next s.takeResponse := by
  have busy : s.idle = false := by simp [State.idle, hv]
  simp only [step, advance, hl, undisturbedStep, busy, Bool.false_eq_true, if_false]
  rw [clockEdge_undisturbed, blockEdge_offered hrst hv]
  rfl

/-- The same command on states with the same parameters and memory gives the same response (R20). -/
theorem exec_response_of_mem_eq {i : Instr} {s s' t : State} (hp : s.params = s'.params) (hm : s.mem = s'.mem)
    (h : exec i s = .next t) : ∃ t', exec i s' = .next t' ∧ t'.response = t.response := by
  obtain ⟨u, t', -, hu, ht', response, -⟩ :=
    outcomeDependsOnlyOnOperandsAndPixel i s s' hp fun a _ => congrArg (Memory.read · a) hm
  cases hu.symm.trans h
  exact ⟨t', ht', response.symm⟩

/-- Settles O47: the LOAD is accepted and answers with its reads alone (`load_trace`), the response is taken, and the
idle block and the memory it leaves are those it began with. -/
theorem loadLeavesNothingBehind : Obligations.LoadLeavesNothingBehind := by
  intro s c w o index base len hi hl hs hc hdec
  obtain ⟨busy, rst, rspValid, memReqValid, memOutstanding⟩ := s.idle_iff.mp hs
  have run := (step_of_idle hl hs hc).trans (runCommand_of_ok hdec)
  obtain ⟨t, ht, answered⟩ := exec_answers (loadInstr w o index base len) (s.accept (sample s.params c))
  have done := exec_completed rfl ht
  have host := done.host
  obtain ⟨request, outstanding⟩ := done.portIdle ⟨memReqValid, memOutstanding⟩
  have loaded := exec_loadInstr.symm.trans ht
  obtain ⟨-, -, -, mem, -⟩ := load_accesses loaded
  have trace := load_trace loaded
  rw [State.accept_trace] at trace
  have take := step_of_offered (host.agenda.trans hl) (host.rst.trans rst) answered.offered
  obtain ⟨v, hv, again⟩ := exec_response_of_mem_eq (s' := t.takeResponse) host.params.symm mem.symm ht
  refine ⟨t, t.takeResponse, v, _, run.trans ht, answered.offered, take, mem, trace, ?reads, ?silent,
    host.params, host.rst, busy.symm, rspValid.symm, request.trans memReqValid.symm,
    outstanding.trans memOutstanding.symm, (hi.idleRead busy).symm, ?ready, host.program, congrArg (· + 1) host.pos,
    congrArg (· ++ [t.response]) host.taken, hv, again⟩
  case reads =>
    intro x hx
    split at hx
    · obtain ⟨a, ha, rfl⟩ := List.mem_map.mp hx
      exact ⟨a, ha, rfl⟩
    · cases hx
  case silent => exact fun failed => if_neg failed
  case ready => simp [State.cmdReady, busy, host.rst]

end Sys2Proof.Machine
end

section
/-! ## The bytes and the field a STORE writes (R151, R152)

`packBytes` is known by its bits, so `assemble` and `split` undo each other byte by byte; a field is known by its bits in
its byte, so what `insertField` and `extractField` do is read off bit by bit. -/

namespace Sys2Proof.Machine

/-! ### Bytes packed and split -/

/-- Byte `i / 8` of the list holds bit `i` of the packed value (R131). -/
theorem packBytes_getLsbD (b : List Byte) {i : Nat} (hi : i < 32) :
    (packBytes b).getLsbD i = (b[i / 8]?.getD 0).getLsbD (i % 8) := by
  induction b generalizing i with
  | nil => simp [packBytes]
  | cons e es ih =>
    by_cases low : i < 8
    · simp [packBytes, low, hi, Nat.div_eq_of_lt, Nat.mod_eq_of_lt]
    · obtain ⟨m, rfl⟩ : ∃ m, i = m + 8 := ⟨i - 8, by omega⟩
      have beyond : e.getLsbD (m + 8) = false := BitVec.getLsbD_of_ge e _ (by omega)
      rw [packBytes, BitVec.getLsbD_or, BitVec.getLsbD_setWidth, beyond, BitVec.getLsbD_shiftLeft,
        Nat.add_sub_cancel, ih (show m < 32 by omega)]
      simp [hi]

theorem byteAt_packBytes (b : List Byte) {k : Nat} (hk : k < 4) : byteAt (packBytes b) k = b[k]?.getD 0 := by
  apply BitVec.eq_of_getLsbD_eq
  intro i hi
  have lane : (8 * k + i) / 8 = k ∧ (8 * k + i) % 8 = i := by omega
  rw [byteAt_getLsbD _ _ _ hi, packBytes_getLsbD b (by omega), lane.1, lane.2]

/-- Splitting into bytes and packing them again keeps the low `8n` bits (R151). -/
theorem packBytes_bytesLe_toNat (n : Nat) (v : BitVec 32) :
    (packBytes (bytesLe n v)).toNat = v.toNat % 2 ^ (8 * n) := by
  apply Nat.eq_of_testBit_eq
  intro i
  rw [Nat.testBit_mod_two_pow]
  change (packBytes (bytesLe n v)).getLsbD i = (decide (i < 8 * n) && v.getLsbD i)
  by_cases hi : i < 32
  · have lane : 8 * (i / 8) + i % 8 = i := Nat.div_add_mod i 8
    have within : i / 8 < n ↔ i < 8 * n := by omega
    rw [packBytes_getLsbD _ hi, bytesLe_getElem?]
    by_cases hn : i / 8 < n
    · simp [hn, within.mp hn, byteAt_getLsbD _ _ _ (Nat.mod_lt i (by omega)), lane]
    · simp [hn, mt within.mpr hn]
  · simp [BitVec.getLsbD_of_ge, Nat.le_of_not_lt hi]

theorem bytesLe_packBytes {n : Nat} {b : List Byte} (hb : b.length = n) (hn : n ≤ 4) :
    bytesLe n (packBytes b) = b := by
  apply List.ext_getElem?
  intro k
  rw [bytesLe_getElem?]
  by_cases hk : k < n
  · rw [if_pos hk, byteAt_packBytes b (by omega), List.getElem?_eq_getElem (by omega), Option.getD_some]
  · rw [if_neg hk, List.getElem?_eq_none (by omega)]

theorem assemble_split (n : Nat) (o : DataOrder) (v : BitVec 32) :
    assemble o (split n o v) = packBytes (bytesLe n v) := by
  cases o
  · rfl
  · rw [assemble, split, bytesBe_eq_reverse, List.reverse_reverse]

/-- The bytes split under one order and assembled under the other are the value's bytes reversed (R168). -/
theorem assemble_split_otherOrder {o o' : DataOrder} (ho : o' ≠ o) (n : Nat) (v : BitVec 32) :
    assemble o' (split n o v) = packBytes (bytesLe n v).reverse := by
  cases o <;> cases o'
  case littleEndianMsb0.bigEndianLsb0 => rfl
  case bigEndianLsb0.littleEndianMsb0 => rw [assemble, split, bytesBe_eq_reverse]
  all_goals exact absurd rfl ho

theorem split_assemble {n : Nat} (o : DataOrder) {b : List Byte} (hb : b.length = n) (hn : n ≤ 4) :
    split n o (assemble o b) = b := by
  cases o
  · exact bytesLe_packBytes hb hn
  · rw [assemble, split, bytesBe_eq_reverse, bytesLe_packBytes (by rw [List.length_reverse, hb]) hn,
      List.reverse_reverse]

/-- Settles O17: the bytes are those of the definition, and the inverses are the lemmas above. -/
theorem splitAndAssembleAreInverse : Obligations.SplitAndAssembleAreInverse := by
  refine fun n _ hn => ⟨fun v k hk => ⟨?little, ?big⟩, fun o v => ⟨split_length n o v, ?low⟩,
    fun o b hb => split_assemble o hb hn, ?single⟩
  case little => rw [split, bytesLe_getElem?, if_pos hk, byteAt]
  case big => simp [split, bytesBe, hk, byteAt]
  case low => rw [assemble_split, packBytes_bytesLe_toNat]
  case single =>
    rintro rfl o v
    cases o <;> simp [split, bytesLe, bytesBe, byteAt, BitVec.setWidth_eq_extractLsb']

/-! ### The field of a sub-byte pixel -/

section
variable {w : Width} {o : DataOrder} {sh : Nat} {v : BitVec 32}

theorem mask_getLsbD (w : Width) (i : Nat) : (mask w).getLsbD i = decide (i < bits w) := by
  rw [BitVec.getLsbD, mask_toNat, Nat.testBit_two_pow_sub_one]

theorem fieldMask_getLsbD {i : Nat} (hi : i < 8) :
    (fieldMask w sh).getLsbD i = decide (sh ≤ i ∧ i < sh + bits w) := by
  by_cases above : sh ≤ i
  · have within : i - sh < bits w ↔ i < sh + bits w := by omega
    simp [fieldMask, mask_getLsbD, hi, above, within]
  · simp [fieldMask, hi, above, Nat.lt_of_not_le above]

/-- The bits of a byte after an insertion: the value's inside the field, the old byte's outside (R152). -/
theorem insertField_getLsbD (hv : v.toNat < 2 ^ bits w) (old : Byte) {i : Nat} (hi : i < 8) :
    (insertField w sh old v).getLsbD i =
      if sh ≤ i ∧ i < sh + bits w then v.getLsbD (i - sh) else old.getLsbD i := by
  rw [insertField, BitVec.getLsbD_or, BitVec.getLsbD_and, BitVec.getLsbD_not, fieldMask_getLsbD hi,
    BitVec.getLsbD_shiftLeft, BitVec.getLsbD_setWidth]
  by_cases above : sh ≤ i
  · by_cases below : i < sh + bits w
    · simp [hi, above, below, show i - sh < 8 by omega]
    · have beyond : v.getLsbD (i - sh) = false :=
        Nat.testBit_lt_two_pow (hv.trans_le (Nat.pow_le_pow_right (by omega) (by omega)))
      simp [hi, below, beyond]
  · simp [hi, above, Nat.lt_of_not_le above]

theorem extractField_getLsbD (w : Width) (sh : Nat) (b : Byte) (i : Nat) :
    (extractField w sh b).getLsbD i = (decide (i < bits w) && b.getLsbD (sh + i)) := by
  rw [BitVec.getLsbD, extractField_toNat, Nat.testBit_mod_two_pow, Nat.testBit_div_two_pow, Nat.add_comm i,
    BitVec.getLsbD]

/-- The inserted value is the field (R152). -/
theorem extractField_insertField (hv : v.toNat < 2 ^ bits w) (hs : sh + bits w ≤ 8) (old : Byte) :
    extractField w sh (insertField w sh old v) = v := by
  apply BitVec.eq_of_getLsbD_eq
  intro i _
  rw [extractField_getLsbD]
  by_cases inside : i < bits w
  · rw [insertField_getLsbD hv old (by omega), if_pos (by omega), Nat.add_sub_cancel_left]
    simp [inside]
  · have beyond : v.getLsbD i = false :=
      Nat.testBit_lt_two_pow (hv.trans_le (Nat.pow_le_pow_right (by omega) (by omega)))
    simp [inside, beyond]

/-- An insertion is not seen in a field beside its own (R167). -/
theorem extractField_insertField_beside {sh' : Nat} (hv : v.toNat < 2 ^ bits w) (hs : sh' + bits w ≤ 8)
    (beside : sh' + bits w ≤ sh ∨ sh + bits w ≤ sh') (old : Byte) :
    extractField w sh' (insertField w sh old v) = extractField w sh' old := by
  apply BitVec.eq_of_getLsbD_eq
  intro i _
  rw [extractField_getLsbD, extractField_getLsbD]
  by_cases inside : i < bits w
  · rw [insertField_getLsbD hv old (by omega), if_neg (by omega)]
  · simp [inside]

/-- Inserting the same value a second time changes nothing (R168). -/
theorem insertField_insertField (hv : v.toNat < 2 ^ bits w) (old : Byte) :
    insertField w sh (insertField w sh old v) v = insertField w sh old v := by
  apply BitVec.eq_of_getLsbD_eq
  intro i hi
  rw [insertField_getLsbD hv _ hi]
  split_ifs with inside
  · rw [insertField_getLsbD hv _ hi, if_pos inside]
  · rfl

theorem slot_mul_bits_le (hw : w.isSubByte = true) (index : Nat) : slot w index * bits w + bits w ≤ 8 := by
  rw [← Nat.add_one_mul, ← perByte_mul_bits hw]
  exact Nat.mul_le_mul_right _ (slot_lt_perByte hw index)

/-- The field of a sub-byte pixel lies in its byte (R152). -/
theorem shift_add_bits_le (hw : w.isSubByte = true) (o : DataOrder) (index : Nat) : shift w o index + bits w ≤ 8 := by
  have := slot_mul_bits_le hw index
  cases o <;> simp only [shift] <;> omega

end

/-- Settles O18: the bits of the new byte, and the field read back. -/
theorem insertChangesOnlyTheField : Obligations.InsertChangesOnlyTheField := by
  intro w o index old v hw hv
  have ones : (mask w).setWidth 8 = BitVec.ofNat 8 (2 ^ bits w - 1) := by
    apply BitVec.eq_of_toNat_eq
    rw [BitVec.toNat_setWidth, mask_toNat, BitVec.toNat_ofNat]
  exact ⟨shift_add_bits_le hw o index, by rw [insertField, fieldMask, ones],
    fun _ hi => insertField_getLsbD hv old hi, extractField_insertField hv (shift_add_bits_le hw o index) old⟩

end Sys2Proof.Machine
end

section
/-! ## STORE (R150 to R166)

An in-bounds STORE fetches its byte if the pixel is below a byte, then writes `storedBytes` to the pixel's addresses
(`store_inBounds`); `stores_storeInstr` says so in the form of the rules, for every width and order, and the fourteen
commands are its cases. -/

namespace Sys2Proof.Machine

/-! ### A run of writes, as a list of cells -/

section
variable (vs : List Byte) (a : Nat) (s : State)

theorem afterWrites_trace_cells :
    (s.afterWrites vs a).trace = s.trace ++ ((List.range' a vs.length).zip vs).map fun c => .write c.1 c.2 := by
  induction vs generalizing a s with
  | nil => simp [State.afterWrites]
  | cons v vs ih => simp [State.afterWrites, ih, List.range'_succ]

theorem afterWrites_read_cell {c : Host.Cell} (hc : c ∈ (List.range' a vs.length).zip vs) :
    (s.afterWrites vs a).mem.read c.1 = c.2 := by
  obtain ⟨j, hj, rfl⟩ := List.getElem_of_mem hc
  have inside : j < vs.length := by simpa using hj
  simp [State.afterWrites_read, inside]

theorem afterWrites_read_other {b : Nat} (hb : b ∉ List.range' a vs.length) :
    (s.afterWrites vs a).mem.read b = s.mem.read b := by
  rw [State.afterWrites_read, if_neg (mt List.mem_range'_1.mpr hb)]

/-- The memory port after a run of writes (R33; logs 7 and 20). -/
theorem afterWrites_portAfter (hvs : vs ≠ []) :
    PortAfter s (s.afterWrites vs a) vs.length ((List.range' a vs.length).getLast?.getD 0) ∧
      (s.afterWrites vs a).memWe = true ∧ (s.afterWrites vs a).memWdata = vs.getLast?.getD 0 := by
  obtain rfl | ⟨us, v, rfl⟩ := vs.eq_nil_or_concat'
  · exact absurd rfl hvs
  obtain ⟨request, outstanding, memWe, address, memWdata⟩ := State.afterWrites_port us v a s
  exact ⟨⟨State.afterWrites_k _ _ _, request, outstanding, by simpa [List.range'_concat] using address⟩, memWe,
    by simpa using memWdata⟩

end

/-! ### The bytes a STORE writes -/

/-- The bytes an in-bounds STORE puts at its pixel's addresses, from its operand and memory (R150 to R152). -/
def storedBytes (w : Width) (o : DataOrder) (index : Nat) (v : BitVec 32) (base : Nat) (m : Memory) : List Byte :=
  if w.isSubByte then [insertField w (shift w o index) (m.read (base + byteIndex w index)) (maskw w v)]
  else split (pixelBytes w) o (maskw w v)

/-- The reads of an in-bounds STORE: below a byte the pixel's byte, else none (R150 step 4). -/
def fetches (w : Width) (index base : Nat) : List Access :=
  if w.isSubByte then [.read (base + byteIndex w index)] else []

/-- The state after these reads. -/
def State.afterFetch (w : Width) (index base : Nat) (s : State) : State :=
  if w.isSubByte then s.afterRead (base + byteIndex w index) else s

section
variable {w : Width} {o : DataOrder} {index base : Nat} {v : BitVec 32} {m : Memory}

theorem storedBytes_subByte (hw : w.isSubByte = true) :
    storedBytes w o index v base m =
      [insertField w (shift w o index) (m.read (base + byteIndex w index)) (maskw w v)] := by
  simp [storedBytes, hw]

/-- The bytes of a byte-aligned pixel lie below its width, so masking drops none of them. -/
theorem storedBytes_aligned (hw : w.isSubByte = false) :
    storedBytes w o index v base m = split (pixelBytes w) o v := by
  have lanes : ∀ j < pixelBytes w, byteAt (maskw w v) j = byteAt v j := by
    intro j hj
    have width := bits_eq_pixelBytes hw
    apply BitVec.eq_of_getLsbD_eq
    intro i hi
    rw [byteAt_getLsbD _ _ _ hi, byteAt_getLsbD _ _ _ hi, maskw_getLsbD, decide_eq_true (by omega), Bool.true_and]
  have bytes : bytesLe (pixelBytes w) (maskw w v) = bytesLe (pixelBytes w) v :=
    List.map_congr_left fun j hj => lanes j (List.mem_range.mp hj)
  cases o <;> simp [storedBytes, hw, split, bytesBe_eq_reverse, bytes]

theorem storedBytes_length : (storedBytes w o index v base m).length = (pixelAddrs w index base).length := by
  cases hw : w.isSubByte <;> simp [storedBytes, pixelAddrs, hw, split_length]

theorem storedBytes_ne_nil : storedBytes w o index v base m ≠ [] := by
  cases hw : w.isSubByte
  · rw [← List.length_pos_iff, storedBytes_aligned hw, split_length]
    exact pixelBytes_pos hw
  · simp [storedBytes_subByte hw]

theorem isSubByte_eq_false_of_bits (h : bits w % 8 = 0) : w.isSubByte = false := by
  revert h
  cases w <;> decide

theorem afterFetch_aligned (hw : w.isSubByte = false) (s : State) : s.afterFetch w index base = s := by
  simp [State.afterFetch, hw]

theorem afterFetch_mem (s : State) : (s.afterFetch w index base).mem = s.mem := by
  unfold State.afterFetch
  split <;> rfl

theorem afterFetch_trace (s : State) : (s.afterFetch w index base).trace = s.trace ++ fetches w index base := by
  cases hw : w.isSubByte <;> simp [State.afterFetch, fetches, hw]

theorem afterFetch_k (s : State) :
    (s.afterFetch w index base).k = s.k + BitVec.ofNat 3 (fetches w index base).length := by
  cases hw : w.isSubByte <;> simp [State.afterFetch, fetches, hw]

theorem afterFetch_keepsHost (s : State) : KeepsHost s (s.afterFetch w index base) := by
  unfold State.afterFetch
  split <;> exact ⟨rfl, rfl, rfl, rfl, rfl, rfl, rfl, rfl, rfl⟩

end

/-- The byte counter counts the fetch as well (R34; log 7). -/
theorem PortAfter.of_afterFetch {w : Width} {index base count addr : Nat} {s t : State}
    (h : PortAfter (s.afterFetch w index base) t count addr) :
    PortAfter s t ((fetches w index base).length + count) addr :=
  { h with counter := by rw [h.counter, afterFetch_k, BitVec.ofNat_add, BitVec.add_assoc] }

/-! ### The meaning of STORE -/

section
variable {w : Width} {o : DataOrder} {index base len : Nat} {v : BitVec 32} {s t : State}

theorem KeepsHost.trans {u : State} (h : KeepsHost s t) (h' : KeepsHost t u) : KeepsHost s u :=
  ⟨h'.params.trans h.params, h'.rst.trans h.rst, h'.busy.trans h.busy, h'.op.trans h.op, h'.program.trans h.program,
    h'.pos.trans h.pos, h'.taken.trans h.taken, h'.agenda.trans h.agenda, h'.unspec.trans h.unspec⟩

/-- The word of a STORE decodes to it. -/
theorem decode_store :
    decode ⟨(Shape.store w o index v base len).encode.cw, index, v, base, len⟩ =
      .ok (storeInstr w o index v base len) :=
  decode_eq_ok_iff.mpr (by simp [encode, storeInstr, shape_ofShape, Shape.readsFrom])

theorem exec_storeInstr : exec (storeInstr w o index v base len) s = store w o index v base len s :=
  exec_of_shape (shape_ofShape _) s

/-- An in-bounds STORE fetches, then writes its bytes at its pixel's addresses, which ascend from the first (R150). -/
theorem store_inBounds (hd : descOk s.params base len = true) (hb : inb w index len = true) :
    ∃ a, pixelAddrs w index base = List.range' a (storedBytes w o index v base s.mem).length ∧
      store w o index v base len s =
        .next (((s.afterFetch w index base).afterWrites (storedBytes w o index v base s.mem) a).respond
          (okResponse 0 0)) := by
  cases hw : w.isSubByte
  case false =>
    refine ⟨base + byteOffset w index, ?_, ?_⟩
    · rw [storedBytes_aligned hw, split_length, pixelAddrs_aligned hw, List.range'_eq_map_range]
    · rw [store_aligned hw hd hb, afterFetch_aligned hw, storedBytes, if_neg (by simp [hw])]
  case true =>
    refine ⟨base + byteIndex w index, ?_, ?_⟩
    · rw [storedBytes_subByte hw, pixelAddrs_subByte hw]
      rfl
    · rw [store_subByte hw hd hb, storedBytes_subByte hw, State.afterFetch, if_pos hw]
      rfl

/-- The cells an in-bounds STORE leaves: its bytes at its pixel's addresses. -/
abbrev storedCells (w : Width) (o : DataOrder) (index : Nat) (v : BitVec 32) (base : Nat) (m : Memory) :
    List Host.Cell :=
  (pixelAddrs w index base).zip (storedBytes w o index v base m)

theorem storedCells_addrs {m : Memory} : (storedCells w o index v base m).map Prod.fst = pixelAddrs w index base :=
  List.map_fst_zip storedBytes_length.ge

theorem storedCells_bytes {m : Memory} :
    (storedCells w o index v base m).map Prod.snd = storedBytes w o index v base m :=
  List.map_snd_zip storedBytes_length.le

/-- The rule of STORE for every width and order (R150). -/
theorem stores_storeInstr :
    Stores s (Shape.store w o index v base len).encode.cw (storeInstr w o index v base len) (bits w) index base len v
      (fetches w index base ++ (storedCells w o index v base s.mem).map fun c => .write c.1 c.2)
      (storedCells w o index v base s.mem) := by
  refine ⟨decode_store, fun h => ?illegal, fun hd h => ?outOfBounds, fun hd hb => ?ok⟩ <;> rw [exec_storeInstr]
  case illegal => exact store_illegal (descOk_eq_false_iff.mpr h)
  case outOfBounds => exact store_outOfBounds (descOk_iff.mpr hd) (inb_eq_false_iff.mpr h)
  case ok =>
    obtain ⟨a, addrs, h⟩ := store_inBounds (o := o) (v := v) (descOk_iff.mpr hd) (inb_iff.mpr hb)
    rw [storedCells_addrs, storedCells_bytes, storedCells, addrs]
    have written : storedBytes w o index v base s.mem ≠ [] := storedBytes_ne_nil
    generalize storedBytes w o index v base s.mem = vs at h written
    obtain ⟨port, memWe, memWdata⟩ := afterWrites_portAfter vs a (s.afterFetch w index base) written
    refine ⟨_, h, rfl, rfl, ?trace, fun c hc => afterWrites_read_cell vs a _ hc, ?others, ?wf, ?host, ?port, memWe,
      memWdata, ?latch⟩
    case trace => rw [State.respond_trace, afterWrites_trace_cells, afterFetch_trace, List.append_assoc]
    case others =>
      intro b outside
      rw [State.respond_mem, afterWrites_read_other vs a _ outside, afterFetch_mem]
    case wf => exact fun canonical => State.afterWrites_wf vs a _ (by rwa [afterFetch_mem])
    case host => exact ((afterFetch_keepsHost s).trans (afterWrites_keepsHost vs a _)).respond _
    case port => simpa using (port.respond (okResponse 0 0)).of_afterFetch
    case latch =>
      intro aligned
      obtain ⟨-, -, -, -, rd, -⟩ := State.afterWrites_frame vs a (s.afterFetch w index base)
      rw [State.respond_rd, rd, afterFetch_aligned (isSubByte_eq_false_of_bits aligned)]

end

/-! ### The six sub-byte STOREs -/

/-- A sub-byte STORE whose shift is known (R153 to R155, R160 to R162). -/
theorem stores_subByte {w : Width} {o : DataOrder} {index sh addr : Nat} {new : Byte} {v : BitVec 32} {s : State}
    (hw : w.isSubByte = true) (hs : shift w o index = sh) (base len : Nat) (ha : base + index / perByte w = addr)
    (hn : (s.mem.read addr &&& ~~~((mask w).setWidth 8 <<< sh)) ||| ((v.extractLsb' 0 (bits w)).setWidth 8 <<< sh) =
      new) :
    Stores s (Shape.store w o index v base len).encode.cw (storeInstr w o index v base len) (bits w) index base len v
      [.read addr, .write addr new] [(addr, new)] := by
  have rule := stores_storeInstr (w := w) (o := o) (index := index) (base := base) (len := len) (v := v) (s := s)
  have low : (maskw w v).setWidth 8 = (v.extractLsb' 0 (bits w)).setWidth 8 := by
    rw [maskw_eq_lowBits, BitVec.setWidth_setWidth_of_le _ (by omega)]
  rw [storedCells, storedBytes_subByte hw, pixelAddrs_subByte hw, fetches, if_pos hw, byteIndex, hs, ha, insertField,
    fieldMask, low, hn] at rule
  exact rule

/-- Settles O22: `stores_subByte` at each width and order, with its shift from the table. -/
theorem subByteStoresMergeTheField : Obligations.SubByteStoresMergeTheField := by
  intro s index base len v
  obtain ⟨lm1, lm2, lm4, bl1, bl2, bl4⟩ := shift_subByte index
  exact ⟨stores_subByte rfl lm1 base len rfl rfl, stores_subByte rfl lm2 base len rfl rfl,
    stores_subByte rfl lm4 base len rfl rfl, stores_subByte rfl bl1 base len rfl rfl,
    stores_subByte rfl bl2 base len rfl rfl, stores_subByte rfl bl4 base len rfl rfl,
    bounds_subByte (w := .w1) rfl, bounds_subByte (w := .w2) rfl, bounds_subByte (w := .w4) rfl⟩

/-! ### The eight byte-aligned STOREs -/

/-- A byte-aligned STORE: its bytes at ascending addresses from the first of them, and no read (R156 to R159, R163 to
R166). -/
theorem stores_aligned {w : Width} {o : DataOrder} {index base len first : Nat} {v : BitVec 32} {s : State}
    {cells : List Host.Cell} (hw : w.isSubByte = false) (hf : first = base + pixelBytes w * index)
    (hc : ((List.range (pixelBytes w)).map (first + ·)).zip (split (pixelBytes w) o v) = cells) :
    Stores s (Shape.store w o index v base len).encode.cw (storeInstr w o index v base len) (bits w) index base len v
      (cells.map fun c => .write c.1 c.2) cells := by
  have rule := stores_storeInstr (w := w) (o := o) (index := index) (base := base) (len := len) (v := v) (s := s)
  rwa [storedCells, storedBytes_aligned hw, pixelAddrs_aligned hw, byteOffset, Nat.mul_comm index, ← hf, hc, fetches,
    if_neg (by simp [hw]), List.nil_append] at rule

/-- Settles O23: `stores_aligned` at each width, the least significant byte first. -/
theorem littleEndianStoresSplitBytes : Obligations.LittleEndianStoresSplitBytes := by
  intro s index base len v
  exact ⟨stores_aligned (w := .w8) (o := .littleEndianMsb0) rfl (by simp [pixelBytes, bits]) rfl,
    stores_aligned (w := .w16) (o := .littleEndianMsb0) rfl rfl rfl,
    stores_aligned (w := .w24) (o := .littleEndianMsb0) rfl rfl rfl,
    stores_aligned (w := .w32) (o := .littleEndianMsb0) rfl rfl rfl,
    bounds_aligned (w := .w8) rfl, bounds_aligned (w := .w16) rfl, bounds_aligned (w := .w24) rfl,
    bounds_aligned (w := .w32) rfl⟩

/-- Settles O24: `stores_aligned` at each width, the most significant byte first. -/
theorem bigEndianStoresSplitBytes : Obligations.BigEndianStoresSplitBytes := by
  intro s index base len v
  exact ⟨stores_aligned (w := .w8) (o := .bigEndianLsb0) rfl (by simp [pixelBytes, bits]) rfl,
    stores_aligned (w := .w16) (o := .bigEndianLsb0) rfl rfl rfl,
    stores_aligned (w := .w24) (o := .bigEndianLsb0) rfl rfl rfl,
    stores_aligned (w := .w32) (o := .bigEndianLsb0) rfl rfl rfl,
    bounds_aligned (w := .w8) rfl, bounds_aligned (w := .w16) rfl, bounds_aligned (w := .w24) rfl,
    bounds_aligned (w := .w32) rfl⟩

end Sys2Proof.Machine
end

section
/-! ## A STORE and the LOADs after it (R167, R168)

A STORE that answers OK has passed both checks, holds its bytes at its pixel's addresses and left every other byte as it
was (`Stored`). What a LOAD answers afterwards is then a fact about `loadValue`: of the same pixel the bytes or the field
just written, of another pixel bytes elsewhere or a field beside. -/

namespace Sys2Proof.Machine

/-- What a STORE that answers OK leaves. -/
structure Stored (w : Width) (o : DataOrder) (index : Nat) (v : BitVec 32) (base len : Nat) (s t : State) : Prop where
  legal : descOk s.params base len = true
  inBounds : inb w index len = true
  params : t.params = s.params
  pixel : (pixelAddrs w index base).map t.mem.read = storedBytes w o index v base s.mem
  others : ∀ a, a ∉ pixelAddrs w index base → t.mem.read a = s.mem.read a

section
variable {w : Width} {o o' : DataOrder} {index base len : Nat} {v : BitVec 32} {s t : State}

/-- An OK answer says that the checks passed (R205). -/
theorem checks_of_store_ok (h : exec (storeInstr w o index v base len) s = .next t) (ok : t.rspStatus = .ok) :
    descOk s.params base len = true ∧ inb w index len = true := by
  have status := exec_status h
  rw [ok, storeInstr, shape_ofShape] at status
  simp only [expectedStatus, ← descOk_eq_false_iff, ← inb_eq_false_iff] at status
  split_ifs at status with illegal outside
  exact ⟨eq_true_of_ne_false illegal, eq_true_of_ne_false outside⟩

/-- An in-bounds STORE answers OK (R150). -/
theorem store_ok (hd : descOk s.params base len = true) (hb : inb w index len = true) :
    ∃ t, exec (storeInstr w o index v base len) s = .next t ∧ t.rspStatus = .ok ∧ Stored w o index v base len s t := by
  obtain ⟨-, -, -, rule⟩ := stores_storeInstr (w := w) (o := o) (index := index) (base := base) (len := len) (v := v)
    (s := s)
  obtain ⟨t, h, -, response, -, cells, others, -, host, -⟩ := rule (descOk_iff.mp hd) (inb_iff.mp hb)
  rw [storedCells_addrs] at others
  refine ⟨t, h, congrArg Response.status response, hd, hb, host.params, ?pixel, others⟩
  rw [← storedCells_addrs (o := o) (v := v) (m := s.mem), ← storedCells_bytes (o := o), List.map_map]
  exact List.map_congr_left cells

theorem stored_of_ok (h : exec (storeInstr w o index v base len) s = .next t) (ok : t.rspStatus = .ok) :
    Stored w o index v base len s t := by
  obtain ⟨hd, hb⟩ := checks_of_store_ok h ok
  obtain ⟨u, hu, -, stored⟩ := store_ok (o := o) (v := v) hd hb
  cases hu.symm.trans h
  exact stored

theorem Stored.byte (h : Stored w o index v base len s t) (hw : w.isSubByte = true) :
    t.mem.read (base + byteIndex w index) =
      insertField w (shift w o index) (s.mem.read (base + byteIndex w index)) (maskw w v) := by
  simpa [pixelAddrs_subByte hw, storedBytes_subByte hw] using h.pixel

theorem Stored.bytes (h : Stored w o index v base len s t) (hw : w.isSubByte = false) :
    (pixelAddrs w index base).map t.mem.read = split (pixelBytes w) o (maskw w v) := by
  rw [h.pixel, storedBytes, if_neg (by simp [hw])]

/-- An in-bounds LOAD answers `loadValue` (R130). -/
theorem load_ok (o : DataOrder) (hd : descOk s.params base len = true) (hb : inb w index len = true) :
    ∃ u, exec (loadInstr w o index base len) s = .next u ∧ u.response = ⟨.ok, loadValue w o index base s.mem, 0⟩ := by
  obtain ⟨a, n, -, h⟩ := load_inBounds (o := o) hd hb
  exact ⟨_, exec_loadInstr.trans h, rfl⟩

/-- After the STORE every in-bounds LOAD of its buffer answers. -/
theorem Stored.load (h : Stored w o index v base len s t) (o' : DataOrder) {j : Nat} (hb : inb w j len = true) :
    ∃ u, exec (loadInstr w o' j base len) t = .next u ∧ u.response = ⟨.ok, loadValue w o' j base t.mem, 0⟩ :=
  load_ok o' (by rw [h.params]; exact h.legal) hb

/-! ### Round trip (R168) -/

/-- The bytes of a masked value, packed again. -/
theorem packBytes_bytesLe_maskw (hw : w.isSubByte = false) (v : BitVec 32) :
    packBytes (bytesLe (pixelBytes w) (maskw w v)) = maskw w v := by
  apply BitVec.eq_of_toNat_eq
  rw [packBytes_bytesLe_toNat, ← bits_eq_pixelBytes hw, Nat.mod_eq_of_lt (maskw_toNat_lt w v)]

theorem Stored.loadValue_same (h : Stored w o index v base len s t) : loadValue w o index base t.mem = maskw w v := by
  cases hw : w.isSubByte
  case false => rw [loadValue_aligned hw, h.bytes hw, assemble_split, packBytes_bytesLe_maskw hw]
  case true =>
    rw [loadValue_subByte hw, h.byte hw, extractField_insertField (maskw_toNat_lt w v) (shift_add_bits_le hw o index)]

theorem Stored.loadValue_otherOrder (h : Stored w o index v base len s t) (ho : o' ≠ o) (hw : w.isSubByte = false) :
    loadValue w o' index base t.mem = packBytes (bytesLe (pixelBytes w) (maskw w v)).reverse := by
  rw [loadValue_aligned hw, h.bytes hw, assemble_split_otherOrder ho]

/-- The bytes of a STORE made again are those of the first. -/
theorem Stored.storedBytes_again (h : Stored w o index v base len s t) :
    storedBytes w o index v base t.mem = storedBytes w o index v base s.mem := by
  cases hw : w.isSubByte
  case false => rw [storedBytes_aligned hw, storedBytes_aligned hw]
  case true =>
    rw [storedBytes_subByte hw, storedBytes_subByte hw, h.byte hw, insertField_insertField (maskw_toNat_lt w v)]

/-- Storing again changes no byte (R168). -/
theorem Stored.again {u : State} (h : Stored w o index v base len s t) (h' : Stored w o index v base len t u)
    (a : Nat) : u.mem.read a = t.mem.read a := by
  by_cases ha : a ∈ pixelAddrs w index base
  · have same : (pixelAddrs w index base).map u.mem.read = (pixelAddrs w index base).map t.mem.read := by
      rw [h'.pixel, h.pixel, h.storedBytes_again]
    exact List.map_inj_left.mp same a ha
  · exact h'.others a ha

end

/-! ### The mirror pixel (R168) -/

/-- The pixel at the mirror slot of the same byte. -/
def mirror (w : Width) (index : Nat) : Nat :=
  index / perByte w * perByte w + (perByte w - 1 - index % perByte w)

section
variable {w : Width} {o o' : DataOrder}

theorem byteIndex_mirror (hw : w.isSubByte = true) (index : Nat) :
    byteIndex w (mirror w index) = byteIndex w index := by
  have pos := perByte_pos hw
  have inByte : perByte w - 1 - index % perByte w < perByte w := by omega
  rw [byteIndex, mirror, Nat.mul_comm, Nat.mul_add_div pos, Nat.div_eq_of_lt inByte, Nat.add_zero, byteIndex]

theorem slot_mirror (hw : w.isSubByte = true) (index : Nat) :
    slot w (mirror w index) = perByte w - 1 - slot w index := by
  have pos := perByte_pos hw
  rw [slot, mirror, Nat.mul_comm, Nat.mul_add_mod, Nat.mod_eq_of_lt (by omega), slot]

/-- The other order places a pixel where the first places its mirror (R115, R116). -/
theorem shift_mirror (hw : w.isSubByte = true) (ho : o' ≠ o) (index : Nat) :
    shift w o (mirror w index) = shift w o' index := by
  have room := slot_mul_bits_le hw index
  have mirrored : (perByte w - 1 - slot w index) * bits w = 8 - bits w - slot w index * bits w := by
    rw [Nat.sub_mul, Nat.sub_mul, perByte_mul_bits hw, Nat.one_mul]
  cases o <;> cases o' <;> simp only [shift, slot_mirror hw, mirrored]
  case littleEndianMsb0.bigEndianLsb0 => omega
  all_goals exact absurd rfl ho

theorem loadValue_mirror (hw : w.isSubByte = true) (ho : o' ≠ o) (index base : Nat) (m : Memory) :
    loadValue w o (mirror w index) base m = loadValue w o' index base m := by
  rw [loadValue_subByte hw, loadValue_subByte hw, shift_mirror hw ho, byteIndex_mirror hw]

/-- Sub-byte pixels of one byte are in bounds together (R117). -/
theorem inb_of_byteIndex_eq {i j len : Nat} (hw : w.isSubByte = true) (hij : byteIndex w j = byteIndex w i)
    (hb : inb w i len = true) : inb w j len = true :=
  (inb_iff_subByte hw).mpr (hij.trans_lt ((inb_iff_subByte hw).mp hb))

end

/-- Settles O25: the LOADs by `loadValue` after the STORE, the second STORE by `Stored.again`. -/
theorem storeThenLoadReturnsTheValue : Obligations.StoreThenLoadReturnsTheValue := by
  intro w o o' index base len v s t h ok
  have stored := stored_of_ok h ok
  refine ⟨?roundTrip, ?again, fun ho hw => ?reversed, fun ho hw => ?mirrored⟩
  case roundTrip =>
    rw [← stored.loadValue_same]
    exact stored.load o stored.inBounds
  case again =>
    obtain ⟨u, hu, status, stored'⟩ := store_ok (o := o) (v := v) (s := t) (by rw [stored.params]; exact stored.legal)
      stored.inBounds
    exact ⟨u, hu, status, stored.again stored'⟩
  case reversed =>
    rw [← stored.loadValue_otherOrder ho hw]
    exact stored.load o' stored.inBounds
  case mirrored =>
    obtain ⟨u, hu, response⟩ := stored.load o' stored.inBounds
    obtain ⟨u', hu', response'⟩ := stored.load o (inb_of_byteIndex_eq hw (byteIndex_mirror hw index) stored.inBounds)
    rw [loadValue_mirror hw ho] at response'
    exact ⟨u, u', hu, hu', response.trans response'.symm, congrArg Response.status response⟩

/-! ### Other pixels (R167) -/

section
variable {w : Width} {o : DataOrder} {i j base len : Nat} {v : BitVec 32} {s t : State}

/-- Two pixels of a byte have fields side by side. -/
theorem shift_beside (hw : w.isSubByte = true) (o : DataOrder) (hs : slot w j ≠ slot w i) :
    shift w o j + bits w ≤ shift w o i ∨ shift w o i + bits w ≤ shift w o j := by
  have roomI := slot_mul_bits_le hw i
  have roomJ := slot_mul_bits_le hw j
  have apart : slot w j * bits w + bits w ≤ slot w i * bits w ∨ slot w i * bits w + bits w ≤ slot w j * bits w := by
    rw [← Nat.add_one_mul, ← Nat.add_one_mul]
    exact (Nat.lt_or_gt_of_ne hs).imp (Nat.mul_le_mul_right _) (Nat.mul_le_mul_right _)
  cases o <;> simp only [shift] <;> omega

/-- Two pixels either share no byte, or are different fields of one byte (R13). -/
theorem disjoint_or_sameByte (hij : j ≠ i) :
    (∀ a ∈ pixelAddrs w j base, a ∉ pixelAddrs w i base) ∨
      w.isSubByte = true ∧ byteIndex w j = byteIndex w i ∧ slot w j ≠ slot w i := by
  cases hw : w.isSubByte
  case false =>
    left
    have apart : (j + 1) * pixelBytes w ≤ i * pixelBytes w ∨ (i + 1) * pixelBytes w ≤ j * pixelBytes w :=
      (Nat.lt_or_gt_of_ne hij).imp (Nat.mul_le_mul_right _) (Nat.mul_le_mul_right _)
    rw [Nat.add_one_mul, Nat.add_one_mul] at apart
    simp only [pixelAddrs_aligned hw, byteOffset, List.mem_map, List.mem_range]
    rintro _ ⟨x, hx, rfl⟩ ⟨y, hy, hxy⟩
    omega
  case true =>
    by_cases same : byteIndex w j = byteIndex w i
    · refine .inr ⟨rfl, same, fun slots => hij ?_⟩
      rw [← Nat.div_add_mod j (perByte w), ← Nat.div_add_mod i (perByte w)]
      exact congrArg₂ (perByte w * · + ·) same slots
    · left
      simpa [pixelAddrs_subByte hw] using same

/-- A pixel that shares no byte with the stored one reads as before, in bounds or not (R20, R167). -/
theorem Stored.load_disjoint (h : Stored w o i v base len s t)
    (apart : ∀ a ∈ pixelAddrs w j base, a ∉ pixelAddrs w i base) :
    ∃ u u', exec (loadInstr w o j base len) s = .next u ∧ exec (loadInstr w o j base len) t = .next u' ∧
      u'.response = u.response := by
  obtain ⟨u, u', -, hu, hu', response, -⟩ :=
    outcomeDependsOnlyOnOperandsAndPixel (loadInstr w o j base len) s t h.params.symm fun a ha =>
      (h.others a (apart a (pixelOf_loadInstr ▸ ha))).symm
  exact ⟨u, u', hu, hu', response.symm⟩

/-- A pixel in the stored one's byte has its field beside the one written (R167). -/
theorem Stored.load_sameByte (h : Stored w o i v base len s t) (hw : w.isSubByte = true)
    (same : byteIndex w j = byteIndex w i) (slots : slot w j ≠ slot w i) :
    ∃ u u', exec (loadInstr w o j base len) s = .next u ∧ exec (loadInstr w o j base len) t = .next u' ∧
      u'.response = u.response := by
  have hb := inb_of_byteIndex_eq hw same h.inBounds
  have value : loadValue w o j base t.mem = loadValue w o j base s.mem := by
    rw [loadValue_subByte hw, loadValue_subByte hw, same, h.byte hw,
      extractField_insertField_beside (maskw_toNat_lt w v) (shift_add_bits_le hw o j) (shift_beside hw o slots)]
  obtain ⟨u, hu, response⟩ := load_ok o h.legal hb
  obtain ⟨u', hu', response'⟩ := h.load o hb
  exact ⟨u, u', hu, hu', by rw [response', response, value]⟩

end

/-- Settles O26: another pixel is elsewhere or beside, and the frame is that of `Stored`. -/
theorem storeLeavesEveryOtherPixel : Obligations.StoreLeavesEveryOtherPixel := by
  intro w o i base len v s t h ok
  have stored := stored_of_ok h ok
  refine ⟨fun j hij => ?otherPixels, stored.others, fun hw n hn outside => ?otherBits⟩
  case otherPixels =>
    obtain apart | ⟨hw, same, slots⟩ := disjoint_or_sameByte (w := w) (base := base) hij
    · exact stored.load_disjoint apart
    · exact stored.load_sameByte hw same slots
  case otherBits => rw [stored.byte hw, insertField_getLsbD (maskw_toNat_lt w v) _ hn, if_neg outside]

end Sys2Proof.Machine
end

section
/-! ## The byte-sequence conversion (R175 to R194)

The sequence of a masked value is as many bytes as its pixel needs: one up to width 8, and above it exactly the bytes a
STORE writes. Packed least significant byte first it is the masked value again; the other sequence is that one
reversed. -/

namespace Sys2Proof.Machine

/-! ### The length of the sequence -/

section
variable {w : Width}

/-- The sequence has room for every bit that masking keeps (R176). -/
theorem bits_le_seqLen (w : Width) : bits w ≤ 8 * seqLen w := by
  unfold seqLen
  omega

theorem seqLen_narrow (hw : bits w ≤ 8) : seqLen w = 1 := by
  have pos := bits_pos w
  unfold seqLen
  omega

theorem seqLen_aligned (hw : w.isSubByte = false) : seqLen w = pixelBytes w := by
  have whole := bits_eq_pixelBytes hw
  unfold seqLen
  omega

theorem isSubByte_eq_false_of_le (hw : 8 ≤ bits w) : w.isSubByte = false := by
  revert hw
  cases w <;> decide

end

/-! ### The packed results -/

section
variable {w : Width} {v : BitVec 32}

/-- Packing the least significant byte first gives the value back (R177, R178). -/
theorem toLeBytesValue_eq_maskw (w : Width) (v : BitVec 32) : toLeBytesValue w v = maskw w v := by
  have fits : (maskw w v).toNat < 2 ^ (8 * seqLen w) :=
    (maskw_toNat_lt w v).trans_le (Nat.pow_le_pow_right (by omega) (bits_le_seqLen w))
  apply BitVec.eq_of_toNat_eq
  rw [toLeBytesValue, packBytes_bytesLe_toNat, Nat.mod_eq_of_lt fits]

/-- A sequence of one byte is its own reverse (R194 b). -/
theorem toBeBytesValue_narrow (hw : bits w ≤ 8) (v : BitVec 32) : toBeBytesValue w v = toLeBytesValue w v := by
  rw [toBeBytesValue, toLeBytesValue, bytesBe_eq_reverse, seqLen_narrow hw]
  rfl

/-- Masking drops no bit of the bytes that a byte-aligned pixel owns. -/
theorem split_maskw_aligned (hw : w.isSubByte = false) (o : DataOrder) (v : BitVec 32) :
    split (pixelBytes w) o (maskw w v) = split (pixelBytes w) o v := by
  have stored := storedBytes_aligned (o := o) (index := 0) (v := v) (base := 0) (m := []) hw
  rwa [storedBytes, if_neg (by simp [hw])] at stored

theorem toLeBytesValue_aligned (hw : w.isSubByte = false) (v : BitVec 32) :
    toLeBytesValue w v = packBytes (bytesLe (pixelBytes w) v) := by
  rw [toLeBytesValue, seqLen_aligned hw]
  exact congrArg packBytes (split_maskw_aligned hw .littleEndianMsb0 v)

theorem toBeBytesValue_aligned (hw : w.isSubByte = false) (v : BitVec 32) :
    toBeBytesValue w v = packBytes (bytesBe (pixelBytes w) v) := by
  rw [toBeBytesValue, seqLen_aligned hw]
  exact congrArg packBytes (split_maskw_aligned hw .bigEndianLsb0 v)

theorem toLeBytesValue_lowBits (w : Width) (v : BitVec 32) :
    toLeBytesValue w v = (v.extractLsb' 0 (bits w)).setWidth 32 :=
  (toLeBytesValue_eq_maskw w v).trans (maskw_eq_lowBits w v)

theorem toBeBytesValue_lowBits (hw : bits w ≤ 8) (v : BitVec 32) :
    toBeBytesValue w v = (v.extractLsb' 0 (bits w)).setWidth 32 :=
  (toBeBytesValue_narrow hw v).trans (toLeBytesValue_lowBits w v)

/-- Three bytes packed, as the low lanes of the port. -/
theorem packBytes_three_lanes (a b c : Byte) : packBytes [a, b, c] = (c ++ b ++ a).setWidth 32 :=
  packBytes_cons (packBytes_two b c) a

/-! ### The commands -/

theorem valueResponse_toLeBytes (w : Width) (v : BitVec 32) :
    valueResponse .toLeBytes w v = ⟨.ok, toLeBytesValue w v, BitVec.ofNat 3 (seqLen w)⟩ := rfl

theorem valueResponse_toBeBytes (w : Width) (v : BitVec 32) :
    valueResponse .toBeBytes w v = ⟨.ok, toBeBytesValue w v, BitVec.ofNat 3 (seqLen w)⟩ := rfl

theorem answersValue_toLeBytes {r : BitVec 32} (h : toLeBytesValue w v = r) (s : State) :
    AnswersValue s (Shape.value .toLeBytes w v).encode.cw (Instr.ofShape (.value .toLeBytes w v)) v r
      (BitVec.ofNat 3 (seqLen w)) :=
  answersValue_of_response (h ▸ valueResponse_toLeBytes w v) s

theorem answersValue_toBeBytes {r : BitVec 32} (h : toBeBytesValue w v = r) (s : State) :
    AnswersValue s (Shape.value .toBeBytes w v).encode.cw (Instr.ofShape (.value .toBeBytes w v)) v r
      (BitVec.ofNat 3 (seqLen w)) :=
  answersValue_of_response (h ▸ valueResponse_toBeBytes w v) s

end

/-- Settles O9: up to width 8 the low bits of the operand, above it its bytes packed in ascending order. -/
theorem toLeBytesPacksTheValue : Obligations.ToLeBytesPacksTheValue := fun s v =>
  ⟨answersValue_toLeBytes (toLeBytesValue_lowBits .w1 v) s, answersValue_toLeBytes (toLeBytesValue_lowBits .w2 v) s,
    answersValue_toLeBytes (toLeBytesValue_lowBits .w4 v) s, answersValue_toLeBytes (toLeBytesValue_lowBits .w8 v) s,
    answersValue_toLeBytes ((toLeBytesValue_aligned (w := .w16) rfl v).trans (packBytes_two _ _)) s,
    answersValue_toLeBytes ((toLeBytesValue_aligned (w := .w24) rfl v).trans (packBytes_three_lanes _ _ _)) s,
    answersValue_toLeBytes ((toLeBytesValue_aligned (w := .w32) rfl v).trans (packBytes_four _ _ _ _)) s⟩

/-- Settles O10: up to width 8 the low bits of the operand, above it its bytes packed in descending order. -/
theorem toBeBytesReversesTheBytes : Obligations.ToBeBytesReversesTheBytes := fun s v =>
  ⟨answersValue_toBeBytes (toBeBytesValue_lowBits (w := .w1) (by decide) v) s,
    answersValue_toBeBytes (toBeBytesValue_lowBits (w := .w2) (by decide) v) s,
    answersValue_toBeBytes (toBeBytesValue_lowBits (w := .w4) (by decide) v) s,
    answersValue_toBeBytes (toBeBytesValue_lowBits (w := .w8) (by decide) v) s,
    answersValue_toBeBytes ((toBeBytesValue_aligned (w := .w16) rfl v).trans (packBytes_two _ _)) s,
    answersValue_toBeBytes ((toBeBytesValue_aligned (w := .w24) rfl v).trans (packBytes_three_lanes _ _ _)) s,
    answersValue_toBeBytes ((toBeBytesValue_aligned (w := .w32) rfl v).trans (packBytes_four _ _ _ _)) s⟩

/-- The bytes an in-bounds byte-aligned STORE leaves at ascending addresses (R150, R151). -/
theorem storedBytes_read_aligned {w : Width} {o : DataOrder} {index base len : Nat} {v : BitVec 32} {s t : State}
    (hw : w.isSubByte = false) (hd : descOk s.params base len = true) (hb : inb w index len = true)
    (h : exec (storeInstr w o index v base len) s = .next t) :
    (List.range (pixelBytes w)).map (fun j => t.mem.read (base + index * pixelBytes w + j)) =
      split (pixelBytes w) o (maskw w v) := by
  obtain ⟨u, hu, -, stored⟩ := store_ok (o := o) (v := v) hd hb
  cases hu.symm.trans h
  have bytes := stored.bytes hw
  rwa [pixelAddrs_aligned hw, List.map_map, byteOffset] at bytes

/-- Settles O13: the reversed list, the one-byte sequences, the bytes of an in-bounds STORE, and the packed value. -/
theorem byteSequenceRelations : Obligations.ByteSequenceRelations := by
  intro w v
  refine ⟨bytesBe_eq_reverse _ _, fun hw s => ?oneByte, fun hw o s t index base len hd hb h => ?stored,
    fun s => ?toLeBytes, fun s => ?intoInner⟩
  case oneByte =>
    rw [exec_value, exec_value, valueResponse_toBeBytes, valueResponse_toLeBytes, toBeBytesValue_narrow hw]
  case stored =>
    have aligned := isSubByte_eq_false_of_le hw
    rw [seqLen_aligned aligned, storedBytes_read_aligned aligned (descOk_iff.mpr hd) (inb_iff.mpr hb) h]
    cases o <;> rfl
  case toLeBytes => rw [exec_value, valueResponse_toLeBytes, toLeBytesValue_eq_maskw]
  case intoInner => rw [exec_value, valueResponse_intoInner]

end Sys2Proof.Machine
end

section
/-! ## Checks precede effects (R205, R206)

A meaning either fails a check, and its whole effect is the response (`exec_failed`), or makes every access of its
operation, in order (`exec_trace`). -/

namespace Sys2Proof.Machine

/-- The accesses of an operation that passes its checks (R130, R150, R206). -/
def accessesOf (m : Memory) : Shape → List Access
  | .value _ _ _ => []
  | .load w _ index base _ => (pixelAddrs w index base).map .read
  | .store w o index v base _ =>
    fetches w index base ++ (storedCells w o index v base m).map fun c => .write c.1 c.2

section
variable {w : Width} {o : DataOrder} {index base len : Nat} {v : BitVec 32} {s t : State}

/-- Below a byte a STORE reads the pixel's byte and writes it back (R150 steps 4 to 6). -/
theorem accessesOf_store_subByte (hw : w.isSubByte = true) (m : Memory) :
    ∃ byte, accessesOf m (.store w o index v base len) =
      [.read (base + byteIndex w index), .write (base + byteIndex w index) byte] :=
  ⟨insertField w (shift w o index) (m.read (base + byteIndex w index)) (maskw w v), by
    simp [accessesOf, fetches, storedCells, hw, storedBytes_subByte hw, pixelAddrs_subByte hw]⟩

/-- A byte-aligned STORE writes one byte to each of the pixel's addresses and reads none (R150 step 4). -/
theorem accessesOf_store_aligned (hw : w.isSubByte = false) (m : Memory) :
    ∃ bytes : List Byte, bytes.length = pixelBytes w ∧
      accessesOf m (.store w o index v base len) =
        ((pixelAddrs w index base).zip bytes).map fun c => .write c.1 c.2 :=
  ⟨storedBytes w o index v base m, by rw [storedBytes_aligned hw, split_length],
    by simp [accessesOf, fetches, hw]⟩

/-- A STORE makes its accesses if it answers OK, and none otherwise (R150, R206). -/
theorem store_trace (h : store w o index v base len s = .next t) :
    t.trace = s.trace ++
      if t.rspStatus = .ok then accessesOf s.mem (.store w o index v base len) else [] := by
  cases hd : descOk s.params base len
  · cases (store_illegal hd).symm.trans h
    simp
  cases hb : inb w index len
  · cases (store_outOfBounds hd hb).symm.trans h
    simp
  · obtain ⟨a, addrs, inBounds⟩ := store_inBounds (o := o) (v := v) hd hb
    cases inBounds.symm.trans h
    simp [accessesOf, storedCells, addrs, afterWrites_trace_cells, afterFetch_trace]

/-- A LOAD that does not answer OK has failed a check, and only its response is there (R206). -/
theorem load_failed (h : load w o index base len s = .next t) (failed : t.rspStatus ≠ .ok) :
    t = s.respond (failResponse t.rspStatus) := by
  cases hd : descOk s.params base len
  · cases (load_illegal hd).symm.trans h
    rfl
  cases hb : inb w index len
  · cases (load_empty hd hb).symm.trans h
    rfl
  · obtain ⟨a, n, -, inBounds⟩ := load_inBounds (o := o) hd hb
    cases inBounds.symm.trans h
    exact absurd rfl failed

/-- A STORE that does not answer OK has failed a check, and only its response is there (R206). -/
theorem store_failed (h : store w o index v base len s = .next t) (failed : t.rspStatus ≠ .ok) :
    t = s.respond (failResponse t.rspStatus) := by
  cases hd : descOk s.params base len
  · cases (store_illegal hd).symm.trans h
    rfl
  cases hb : inb w index len
  · cases (store_outOfBounds hd hb).symm.trans h
    rfl
  · obtain ⟨a, -, inBounds⟩ := store_inBounds (o := o) (v := v) hd hb
    cases inBounds.symm.trans h
    exact absurd rfl failed

end

section
variable {i : Instr} {s t : State}

/-- A non-OK status is decided before the first access: nothing but the response changes (R206). -/
theorem exec_failed (h : exec i s = .next t) (failed : t.rspStatus ≠ .ok) :
    t = s.respond (failResponse t.rspStatus) := by
  rw [exec_eq_shape] at h
  cases hi : i.shape <;> rw [hi] at h
  case value op w v =>
    cases h
    exact absurd (valueResponse_status op w v) failed
  case load => exact load_failed h failed
  case store => exact store_failed h failed

/-- A meaning that answers OK has made all the accesses of its operation (R206). -/
theorem exec_trace (h : exec i s = .next t) (ok : t.rspStatus = .ok) :
    t.trace = s.trace ++ accessesOf s.mem i.shape := by
  rw [exec_eq_shape] at h
  cases hi : i.shape <;> rw [hi] at h
  case value op w v =>
    cases h
    exact (List.append_nil _).symm
  case load => simp [load_trace h, ok, accessesOf]
  case store => simp [store_trace h, ok]

end

/-- Settles O27: `exec_failed` and `exec_trace`, and for STORE its accesses below a byte and byte by byte. -/
theorem failedCommandsHaveNoEffect : Obligations.FailedCommandsHaveNoEffect := by
  intro i s
  obtain ⟨t, ht, answered⟩ := exec_answers i s
  refine ⟨t, ht, answered.offered, exec_failed ht, fun ok => ⟨_, exec_trace ht ok, ?accesses⟩,
    fun _ _ illegal => runCommand_of_error illegal⟩
  cases i.shape with
  | value op w v => rfl
  | load w o index base len => rfl
  | store w o index v base len =>
    cases hw : w.isSubByte
    case true => simpa only [hw, if_true] using accessesOf_store_subByte hw s.mem
    case false => simpa only [hw, Bool.false_eq_true, if_false] using accessesOf_store_aligned hw s.mem

end Sys2Proof.Machine
end

section
/-! ## Progress and reset at the edges (R36, R231, R245)

`AnswersWithin n` bounds the undisturbed moves up to the response whatever the other agents do to memory between two of
them. A silent memory makes the block wait, a slow one delays each move. -/

namespace Sys2Proof.Machine

/-- No writes of other agents at an edge leave the state to the block, or to reset. -/
theorem clockEdge_of_no_agents {e : Edge} (he : e.agents = []) (s : State) :
    clockEdge e s = if e.rst then resetEdge e.lands s else blockEdge e s := by
  simp [clockEdge, he, agentWrites]

/-- An edge that leaves a state as it is can be repeated. -/
theorem runEdges_fixed {es : List Edge} {s : State} (h : ∀ e ∈ es, clockEdge e s = .next s) :
    runEdges es s = .next s := by
  induction es with
  | nil => rfl
  | cons e es ih =>
    rw [runEdges, h e List.mem_cons_self]
    exact ih fun f hf => h f (List.mem_cons_of_mem e hf)

/-- Without a completion pulse the block keeps waiting for its outstanding request (R33). -/
theorem blockEdge_silent {e : Edge} {s : State} (hrst : s.rst = false) (hv : s.rspValid = false)
    (hq : s.memReqValid = false) (ho : s.memOutstanding = true) (he : e.memRspValid = false) :
    blockEdge e s = .next s := by
  simp [blockEdge, hrst, hv, hq, ho, he]

/-- Settles O44: each silent edge leaves the state as it is (`blockEdge_silent`). -/
theorem silentMemoryLeavesTheBlockBusy : Obligations.SilentMemoryLeavesTheBlockBusy := by
  intro s es _ hrst hv hq ho he
  refine runEdges_fixed fun e hmem => ?_
  obtain ⟨noReset, silent, noAgents⟩ := he e hmem
  rw [clockEdge_of_no_agents noAgents, noReset]
  exact blockEdge_silent hrst hv hq ho silent

/-- A reset edge with nothing pending on the memory port. -/
theorem resetEdge_of_portIdle {s : State} (h : s.portIdle) (lands : Bool) :
    resetEdge lands s = .next s.resetBlock := by
  obtain ⟨hq, ho⟩ := h
  simp [resetEdge, hq, ho]

/-- The edge at which `rst` returns to 0 does nothing else (R231). -/
theorem blockEdge_inReset {s : State} (h : s.rst = true) (e : Edge) : blockEdge e s = .next s.dropReset := by
  simp [blockEdge, h]

/-- Settles O45: the two edges are `State.resetBlock`, then `State.dropReset`. -/
theorem resetEdgeMakesTheBlockIdle : Obligations.ResetEdgeMakesTheBlockIdle := by
  intro e e' s hrst hagents hrst' hagents' hq ho
  have reset : clockEdge e s = .next s.resetBlock := by
    rw [clockEdge_of_no_agents hagents, hrst]
    exact resetEdge_of_portIdle ⟨hq, ho⟩ e.lands
  have dropped : clockEdge e' s.resetBlock = .next s.resetBlock.dropReset := by
    rw [clockEdge_of_no_agents hagents', hrst']
    exact blockEdge_inReset (s := s.resetBlock) rfl e'
  exact ⟨_, _, reset, rfl, rfl, rfl, rfl, rfl, rfl, rfl, rfl, rfl, rfl, rfl, dropped, rfl, rfl, rfl, rfl, rfl, rfl, rfl,
    rfl⟩

section
variable {e : Edge} {s : State}

/-- An edge at which the response is not taken and the memory keeps its duty is a wait or the undisturbed move. -/
theorem blockEdge_eq_wait_or_move (hrst : s.rst = false) (hv : s.rspValid = false) (hdata : e.memRdata = none) :
    blockEdge e s = .next s ∨ blockEdge e s = blockEdge Edge.undisturbed s := by
  cases hq : s.memReqValid
  case true =>
    rw [blockEdge_raised hrst hv hq]
    cases he : e.memReqReady <;> simp [blockEdge, hrst, hv, hq, he]
  cases ho : s.memOutstanding
  case true =>
    rw [blockEdge_outstanding hrst hv hq ho]
    cases he : e.memRspValid <;> simp [blockEdge, hrst, hv, hq, ho, he, hdata]
  cases hb : s.busy
  case true =>
    have deciding : s.Deciding := ⟨hrst, hb, hv, hq, ho⟩
    exact .inr ((deciding.blockEdge e).trans (deciding.blockEdge _).symm)
  rw [blockEdge_idle hrst hv hq ho hb]
  cases hc : s.presented <;> cases he : e.cmdValid <;> simp [blockEdge, hrst, hv, hq, ho, hb, hc, he]

theorem Edge.ready_iff : e.ready = true ↔ e.cmdValid = true ∧ e.memReqReady = true ∧ e.memRspValid = true := by
  simp [Edge.ready, and_assoc]

/-- An edge at which host and memory are ready is the undisturbed move (R245). -/
theorem blockEdge_ready (hrst : s.rst = false) (hv : s.rspValid = false) (hdata : e.memRdata = none)
    (he : e.ready = true) : blockEdge e s = blockEdge Edge.undisturbed s := by
  obtain ⟨hc, hr, hp⟩ := Edge.ready_iff.mp he
  simp [blockEdge, hrst, hv, hc, hr, hp, hdata, Edge.undisturbed]

end

/-- At most `n` undisturbed moves lead to an offered response, whatever memory holds at each of them. -/
inductive AnswersWithin : Nat → State → Prop
  /-- the response is offered -/
  | offered {n : Nat} {s : State} (rst : s.rst = false) (rspValid : s.rspValid = true) : AnswersWithin n s
  /-- one more move, on any memory -/
  | move {n : Nat} {s : State} (rst : s.rst = false) (rspValid : s.rspValid = false)
      (moves : ∀ m, ∃ t, blockEdge Edge.undisturbed { s with mem := m } = .next t)
      (rest : ∀ m t, blockEdge Edge.undisturbed { s with mem := m } = .next t → AnswersWithin n t) :
      AnswersWithin (n + 1) s

theorem AnswersWithin.succ {n : Nat} {s : State} (h : AnswersWithin n s) : AnswersWithin (n + 1) s := by
  induction h with
  | offered rst rspValid => exact .offered rst rspValid
  | move rst rspValid moves _ ih => exact .move rst rspValid moves ih

theorem AnswersWithin.withMem {n : Nat} {s : State} (h : AnswersWithin n s) (m : Memory) :
    AnswersWithin n { s with mem := m } := by
  cases h with
  | offered rst rspValid => exact .offered rst rspValid
  | move rst rspValid moves rest => exact .move rst rspValid moves rest

/-- One more move, known on every memory. -/
theorem AnswersWithin.move_to {n : Nat} {s : State} (hrst : s.rst = false) (hv : s.rspValid = false)
    (next : ∀ m, ∃ t, blockEdge Edge.undisturbed { s with mem := m } = .next t ∧ AnswersWithin n t) :
    AnswersWithin (n + 1) s := by
  refine .move hrst hv (fun m => (next m).imp fun _ => And.left) fun m t ht => ?_
  obtain ⟨u, hu, rest⟩ := next m
  cases hu.symm.trans ht
  exact rest

/-- A request to an existing address succeeds (R30, R33). -/
theorem completeRequest_of_exists (rdata : Option Byte) {s : State} (h : s.memAddr < 2 ^ s.params.addrw) :
    ∃ t, completeRequest rdata s = .ok t := by
  cases hwe : s.memWe <;> simp [completeRequest, addrExists, h, hwe]

/-- An outstanding request to an existing address completes; the block then decides again, one access further (R34). -/
theorem AnswersWithin.outstanding {n : Nat} {s : State} (hrst : s.rst = false) (hb : s.busy = true)
    (hv : s.rspValid = false) (hq : s.memReqValid = false) (ho : s.memOutstanding = true)
    (ha : s.memAddr < 2 ^ s.params.addrw) (rest : ∀ t : State, t.Deciding → t.k = s.k + 1 → AnswersWithin n t) :
    AnswersWithin (n + 1) s := by
  refine .move_to hrst hv fun m => ?_
  obtain ⟨t, ht⟩ := completeRequest_of_exists none (s := { s with mem := m }) ha
  refine ⟨t, by rw [blockEdge_outstanding (s := { s with mem := m }) hrst hv hq ho, ht, ofBus_ok], ?_⟩
  obtain ⟨-, ⟨-, rfl⟩ | ⟨-, rfl⟩⟩ := completeRequest_ok ht
  · exact rest _ ⟨hrst, hb, hv, hq, rfl⟩ rfl
  · exact rest _ ⟨hrst, hb, hv, hq, rfl⟩ rfl

/-- A raised request to an existing address is accepted, then completed (R33). -/
theorem AnswersWithin.request {n : Nat} {s : State} (hrst : s.rst = false) (hb : s.busy = true)
    (hv : s.rspValid = false) (hq : s.memReqValid = true) (ha : s.memAddr < 2 ^ s.params.addrw)
    (rest : ∀ t : State, t.Deciding → t.k = s.k + 1 → AnswersWithin n t) : AnswersWithin (n + 2) s :=
  .move_to hrst hv fun m =>
    ⟨_, blockEdge_raised (s := { s with mem := m }) hrst hv hq, .outstanding hrst hb hv rfl rfl ha rest⟩

/-- What a deciding block raises: its response, or one of its first four requests, to an existing address (R34, R118). -/
theorem State.act_answer_or_request (s : State) :
    s.act.rspValid = true ∨
      (s.k.toNat < 4 ∧ s.act.memReqValid = true ∧ s.act.rspValid = s.rspValid ∧ s.act.memAddr < 2 ^ s.params.addrw ∧
        s.act.k = s.k) := by
  obtain ⟨a, hn, h⟩ | ⟨a, v, hn, h⟩ | ⟨r, -, h⟩ := s.act_cases <;> rw [h]
  · obtain ⟨hk, ha⟩ := State.nextAction_access (.inl hn)
    exact .inr ⟨hk, rfl, rfl, ha, rfl⟩
  · obtain ⟨hk, ha⟩ := State.nextAction_access (.inr ⟨v, hn⟩)
    exact .inr ⟨hk, rfl, rfl, ha, rfl⟩
  · exact .inl rfl

theorem State.Deciding.withMem {s : State} (h : s.Deciding) (m : Memory) : State.Deciding { s with mem := m } :=
  ⟨h.rst, h.busy, h.rspValid, h.port⟩

/-- Three moves for each of the `j` accesses that may still come, and one for the response. -/
theorem State.Deciding.answersWithin {j : Nat} {s : State} (hs : s.Deciding) (hj : 4 ≤ s.k.toNat + j) :
    AnswersWithin (3 * j + 1) s := by
  induction j using Nat.strong_induction_on generalizing s with
  | _ j ih =>
    refine .move_to hs.rst hs.rspValid fun m => ⟨_, (hs.withMem m).blockEdge _, ?_⟩
    have counted : 4 ≤ (State.k { s with mem := m }).toNat + j := hj
    have deciding := hs.withMem m
    generalize ({ s with mem := m } : State) = w at counted deciding ⊢
    have host := w.act_keepsHost
    obtain answer | ⟨hk, request, silent, space, counter⟩ := w.act_answer_or_request
    · exact .offered (host.rst.trans deciding.rst) answer
    · have completed : ∀ t : State, t.Deciding → t.k = w.act.k + 1 → AnswersWithin (3 * (j - 1) + 1) t := by
        intro t ht next
        refine ih (j - 1) (by omega) ht ?_
        rw [next, counter, BitVec.toNat_add]
        simp only [BitVec.reduceToNat]
        omega
      rw [show 3 * j = 3 * (j - 1) + 1 + 2 by omega]
      exact .request (host.rst.trans deciding.rst) (host.busy.trans deciding.busy) (silent.trans deciding.rspValid) request
        (host.params.symm ▸ space) completed

/-- An idle block with a presented command: one move to accept it, three for each of at most four accesses, one for the
response (log 6). -/
theorem answersWithin_of_presented {s : State} {c : Command} (hs : s.idle = true) (hc : s.presented = some c) :
    AnswersWithin 14 s := by
  obtain ⟨-, hrst, hv, -, -⟩ := s.idle_iff.mp hs
  refine .move_to hrst hv fun m => ?_
  have accepted := clockEdge_accept (s := { s with mem := m }) hs hc
  have running := State.accept_deciding (s := { s with mem := m }) hs (sample s.params c)
  rw [clockEdge_undisturbed] at accepted
  exact ⟨_, accepted, running.answersWithin (j := 4) (by omega)⟩

/-- One edge of a slow memory: the bound stays, and goes down if host and memory are ready. -/
theorem AnswersWithin.blockEdge {n : Nat} {e : Edge} {s : State} (h : AnswersWithin n s) (he : e.avoids [] = true) :
    ∃ t, blockEdge e s = .next t ∧ AnswersWithin n t ∧ (e.ready = true → AnswersWithin (n - 1) t) := by
  obtain ⟨-, -, notTaken, duty⟩ := Edge.avoids_iff.mp he
  cases h with
  | offered rst rspValid =>
    have held : Machine.blockEdge e s = .next s := by rw [blockEdge_offered rst rspValid, notTaken]; rfl
    exact ⟨s, held, .offered rst rspValid, fun _ => .offered rst rspValid⟩
  | @move n _ rst rspValid moves rest =>
    obtain ⟨t, ht⟩ := moves s.mem
    have moved : Machine.blockEdge e s = Machine.blockEdge Edge.undisturbed s →
        ∃ u, Machine.blockEdge e s = .next u ∧ AnswersWithin (n + 1) u ∧ (e.ready = true → AnswersWithin n u) :=
      fun same => ⟨t, same.trans ht, (rest _ t ht).succ, fun _ => rest _ t ht⟩
    by_cases ready : e.ready = true
    · exact moved (blockEdge_ready rst rspValid duty ready)
    obtain wait | same := blockEdge_eq_wait_or_move rst rspValid duty
    · exact ⟨s, wait, .move rst rspValid moves rest, fun hr => absurd hr ready⟩
    · exact moved same

/-- Other agents' writes to existing addresses succeed (R52). -/
theorem agentWrites_of_exist {cs : List Host.Cell} {s : State} (h : ∀ c ∈ cs, c.1 < 2 ^ s.params.addrw) :
    ∃ t, agentWrites cs s = .ok t := by
  induction cs generalizing s with
  | nil => exact ⟨s, rfl⟩
  | cons c cs ih =>
    obtain ⟨t, ht⟩ := ih (s := s.agentWrite c.1 c.2) fun d hd => h d (List.mem_cons_of_mem c hd)
    exact ⟨t, by simpa [agentWrites, addrExists, h c List.mem_cons_self] using ht⟩

/-- A run with as many ready edges as there are moves left answers, however many other edges it has. -/
theorem AnswersWithin.runEdges {n : Nat} {es : List Edge} {s : State} (h : AnswersWithin n s)
    (he : ∀ e ∈ es, e.avoids [] = true ∧ ∀ a ∈ e.agents, a.1 < 2 ^ s.params.addrw)
    (hn : n ≤ es.countP Edge.ready) : ∃ u, runEdges es s = .next u ∧ u.rspValid = true := by
  induction es generalizing n s with
  | nil =>
    cases h with
    | offered _ rspValid => exact ⟨s, rfl, rspValid⟩
    | move _ _ _ _ => simp at hn
  | cons e es ih =>
    obtain ⟨avoids, space⟩ := he e List.mem_cons_self
    obtain ⟨-, noReset, -, -⟩ := Edge.avoids_iff.mp avoids
    obtain ⟨w, hw⟩ := agentWrites_of_exist space
    have writes := agentWrites_eq hw
    have bound : AnswersWithin n w := writes ▸ h.withMem _
    obtain ⟨t, ht, slow, fast⟩ := bound.blockEdge avoids
    have edge : clockEdge e s = .next t := (clockEdge_of_agentWrites noReset hw).trans ht
    have params : t.params = s.params := (clockEdge_hostStep edge).params
    have rest : ∀ f ∈ es, f.avoids [] = true ∧ ∀ a ∈ f.agents, a.1 < 2 ^ t.params.addrw :=
      fun f hf => params.symm ▸ he f (List.mem_cons_of_mem e hf)
    rw [List.countP_cons] at hn
    simp only [Machine.runEdges, edge]
    by_cases ready : e.ready = true
    · exact ih (fast ready) rest (by simpa [ready] using hn)
    · exact ih slow rest (by simpa [ready] using hn)

/-- Settles O46: `answersWithin_of_presented` and `AnswersWithin.runEdges`. -/
theorem commandsFinishWithASlowMemory : Obligations.CommandsFinishWithASlowMemory :=
  fun _ _ _ hs hc he hn => (answersWithin_of_presented hs hc).runEdges he hn

end Sys2Proof.Machine
end

section
/-! ## Reset in the middle of a command (R231, R232)

`Decides s` are the states at which the command held in `s` decides what to do next, one completed access after the other;
a run without disturbance stands at such a state or at most two edges behind it. What a reset leaves in memory is memory at
one of these states (`reset_cutsOff`), so each statement is about the accesses its command makes. -/

namespace Sys2Proof.Machine

/-- The states at which a command decides what it does next: where it began, and after each access it called for. -/
inductive Decides (s : State) : State → Prop
  | first : Decides s s
  | read {d : State} {a : Nat} (before : Decides s d) (called : d.nextAction = .read a) : Decides s (d.afterRead a)
  | write {d : State} {a : Nat} {v : Byte} (before : Decides s d) (called : d.nextAction = .write a v) :
      Decides s (d.afterWrite a v)

/-- The states of an undisturbed block between a decision and the next: decided, raised or answered, accepted. -/
inductive Phase (d : State) : State → Prop
  | deciding : Phase d d
  | acted : Phase d d.act
  | accepted (request : d.act.memReqValid = true) : Phase d d.act.acceptRequest

theorem afterRead_keepsHost (s : State) (a : Nat) : KeepsHost s (s.afterRead a) :=
  ⟨rfl, rfl, rfl, rfl, rfl, rfl, rfl, rfl, rfl⟩

theorem afterWrite_keepsHost (s : State) (a : Nat) (v : Byte) : KeepsHost s (s.afterWrite a v) :=
  ⟨rfl, rfl, rfl, rfl, rfl, rfl, rfl, rfl, rfl⟩

section
variable {s d w x : State}

theorem Decides.keepsHost (h : Decides s d) : KeepsHost s d := by
  induction h with
  | first => exact ⟨rfl, rfl, rfl, rfl, rfl, rfl, rfl, rfl, rfl⟩
  | read _ _ ih => exact ih.trans (afterRead_keepsHost _ _)
  | write _ _ ih => exact ih.trans (afterWrite_keepsHost _ _ _)

theorem Decides.deciding (h : Decides s d) (hs : s.Deciding) : d.Deciding := by
  induction h with
  | first => exact hs
  | read _ _ ih => exact ih.afterRead _
  | write _ _ ih => exact ih.afterWrite _ _

theorem Phase.keepsHost (h : Phase d w) : KeepsHost d w := by
  cases h with
  | deciding => exact ⟨rfl, rfl, rfl, rfl, rfl, rfl, rfl, rfl, rfl⟩
  | acted => exact d.act_keepsHost
  | accepted _ => exact d.act_keepsHost.trans ⟨rfl, rfl, rfl, rfl, rfl, rfl, rfl, rfl, rfl⟩

theorem Phase.mem (h : Phase d w) : w.mem = d.mem := by
  cases h with
  | deciding => rfl
  | acted => exact d.act_mem
  | accepted _ => exact d.act_mem

/-- The access a decision calls for, once accepted and completed, leads to the next decision. -/
theorem Decides.complete (h : Decides s d) (hd : d.Deciding) (request : d.act.memReqValid = true)
    (hc : completeRequest none d.act.acceptRequest = .ok x) : Decides s x := by
  obtain ⟨a, called, ha⟩ | ⟨a, v, called, ha⟩ | ⟨r, -, ha⟩ := d.act_cases <;> rw [ha] at hc request
  · obtain ⟨-, ⟨hwe, -⟩ | ⟨-, rfl⟩⟩ := completeRequest_ok hc
    · exact nomatch hwe
    · exact h.read called
  · obtain ⟨-, ⟨-, rfl⟩ | ⟨hwe, -⟩⟩ := completeRequest_ok hc
    · exact h.write called
    · exact nomatch hwe
  · exact nomatch hd.port.1.symm.trans request

/-- The undisturbed move from between two decisions stays there or reaches the next one. -/
theorem Phase.move (h : Phase d w) (hs : s.Deciding) (hd : Decides s d) (silent : w.rspValid = false)
    (moved : blockEdge Edge.undisturbed w = .next x) : ∃ d', Decides s d' ∧ Phase d' x := by
  have deciding := hd.deciding hs
  have raised : d.act.rspValid = false → d.act.memReqValid = true := by
    obtain ⟨a, -, ha⟩ | ⟨a, v, -, ha⟩ | ⟨r, -, ha⟩ := d.act_cases <;> simp [ha]
  have hrst := d.act_keepsHost.rst.trans deciding.rst
  cases h with
  | deciding =>
    cases (deciding.blockEdge _).symm.trans moved
    exact ⟨d, hd, .acted⟩
  | acted =>
    cases (blockEdge_raised hrst silent (raised silent)).symm.trans moved
    exact ⟨d, hd, .accepted (raised silent)⟩
  | accepted request =>
    rw [blockEdge_outstanding (s := d.act.acceptRequest) hrst silent rfl rfl, ofBus_eq_next] at moved
    exact ⟨x, hd.complete deciding request moved, .deciding⟩

/-- A request completes alike before and after its acceptance, as far as memory goes. -/
theorem completeRequest_acceptRequest (h : completeRequest none w = .ok x) :
    ∃ y, completeRequest none w.acceptRequest = .ok y ∧ y.mem = x.mem := by
  obtain ⟨ha, ⟨hwe, rfl⟩ | ⟨hwe, rfl⟩⟩ := completeRequest_ok h <;> simp [completeRequest, addrExists, ha, hwe]

/-- A request pending between two decisions leaves, if it lands, memory as it is at the next. -/
theorem Phase.land (h : Phase d w) (hs : s.Deciding) (hd : Decides s d)
    (pending : w.memReqValid = true ∨ w.memOutstanding = true) (landed : completeRequest none w = .ok x) :
    ∃ d', Decides s d' ∧ x.mem = d'.mem := by
  have deciding := hd.deciding hs
  obtain ⟨hq, ho⟩ := deciding.port
  cases h with
  | deciding => simp [hq, ho] at pending
  | acted =>
    have request : d.act.memReqValid = true := by
      obtain ⟨a, -, ha⟩ | ⟨a, v, -, ha⟩ | ⟨r, -, ha⟩ := d.act_cases <;> rw [ha] at pending ⊢
      · rfl
      · rfl
      · exact pending.resolve_right (by simp [ho])
    obtain ⟨y, hy, mem⟩ := completeRequest_acceptRequest landed
    exact ⟨y, hd.complete deciding request hy, mem.symm⟩
  | accepted request => exact ⟨x, hd.complete deciding request landed, rfl⟩

end

/-- What every edge of a run keeps holds at its end. -/
theorem runEdges_invariant {P : State → Prop} {es : List Edge} {s u : State}
    (step : ∀ e ∈ es, ∀ w x, P w → clockEdge e w = .next x → P x) (hs : P s) (h : runEdges es s = .next u) : P u := by
  induction es generalizing s with
  | nil =>
    cases h
    exact hs
  | cons e es ih =>
    obtain ⟨x, hx, rest⟩ := runEdges_cons_next h
    exact ih (fun f hf => step f (List.mem_cons_of_mem e hf)) (step e List.mem_cons_self s x hs hx) rest

/-- A run with one more edge. -/
theorem runEdges_concat_next {es : List Edge} {r : Edge} {s t : State} (h : runEdges (es ++ [r]) s = .next t) :
    ∃ w, runEdges es s = .next w ∧ clockEdge r w = .next t := by
  induction es generalizing s with
  | nil => exact ⟨s, rfl, (runEdges_singleton r s).symm.trans h⟩
  | cons e es ih =>
    obtain ⟨x, hx, rest⟩ := runEdges_cons_next h
    obtain ⟨w, hw, last⟩ := ih rest
    exact ⟨w, by simpa [runEdges, hx] using hw, last⟩

theorem Edge.quiet_iff {e : Edge} :
    e.quiet = true ↔ e.agents = [] ∧ e.rst = false ∧ e.rspReady = false ∧ e.memRdata = none := by
  simp [Edge.quiet, Edge.avoids, and_assoc]

/-- At a quiet edge the block waits or makes its undisturbed move. -/
theorem clockEdge_quiet {e : Edge} {w x : State} (he : e.quiet = true) (hrst : w.rst = false)
    (h : clockEdge e w = .next x) :
    x = w ∨ (w.rspValid = false ∧ blockEdge Edge.undisturbed w = .next x) := by
  obtain ⟨noAgents, noReset, notTaken, duty⟩ := Edge.quiet_iff.mp he
  rw [clockEdge_of_no_agents noAgents, noReset] at h
  exact blockEdge_wait_or_move notTaken duty hrst h

/-- What a reset leaves of a block: it is idle, `cmd_ready` is 0, and the host has taken nothing (R231, R232). -/
structure Abandoned (s t : State) : Prop where
  busy : t.busy = false
  rspValid : t.rspValid = false
  memReqValid : t.memReqValid = false
  cmdReady : t.cmdReady = false
  taken : t.taken = s.taken
  pos : t.pos = s.pos

theorem KeepsHost.abandoned {s w : State} (h : KeepsHost s w) : Abandoned s w.resetBlock :=
  ⟨rfl, rfl, rfl, rfl, h.taken, h.pos⟩

section
variable {s t w : State} {c : Command} {es : List Edge} {r : Edge}

/-- The presented command has not been accepted yet, or it runs undisturbed. -/
def Underway (s : State) (c : Command) (w : State) : Prop :=
  w = s ∨ ∃ d, Decides (s.accept (sample s.params c)) d ∧ Phase d w

/-- Quiet edges let the presented command begin and run (R31, R34). -/
theorem Underway.clockEdge {e : Edge} {x : State} (hs : s.idle = true) (hc : s.presented = some c)
    (h : Underway s c w) (he : e.quiet = true) (hx : clockEdge e w = .next x) : Underway s c x := by
  have deciding := s.accept_deciding hs (sample s.params c)
  obtain rfl | ⟨d, hd, hw⟩ := h
  · obtain ⟨-, hrst, -⟩ := State.idle_iff w |>.mp hs
    obtain rfl | ⟨-, moved⟩ := clockEdge_quiet he hrst hx
    · exact .inl rfl
    · rw [← clockEdge_undisturbed, clockEdge_accept hs hc] at moved
      cases moved
      exact .inr ⟨_, .first, .deciding⟩
  · have hrst : w.rst = false := hw.keepsHost.rst.trans (hd.deciding deciding).rst
    obtain rfl | ⟨silent, moved⟩ := clockEdge_quiet he hrst hx
    · exact .inr ⟨d, hd, hw⟩
    · exact .inr (hw.move deciding hd silent moved)

/-- A reset edge abandons the command; memory is as it was at one of its decisions, a request in flight landed or not. -/
theorem Underway.resetEdge {lands : Bool} (hs : s.idle = true) (h : Underway s c w)
    (hr : resetEdge lands w = .next t) :
    Abandoned s t ∧ ∃ d, Decides (s.accept (sample s.params c)) d ∧ t.mem = d.mem := by
  have deciding := s.accept_deciding hs (sample s.params c)
  obtain rfl | ⟨d, hd, hw⟩ := h
  · obtain ⟨-, -, -, hq, ho⟩ := State.idle_iff w |>.mp hs
    cases (resetEdge_of_portIdle ⟨hq, ho⟩ lands).symm.trans hr
    exact ⟨⟨rfl, rfl, rfl, rfl, rfl, rfl⟩, _, .first, rfl⟩
  · have accepted : Abandoned (s.accept (sample s.params c)) t → Abandoned s t := fun ha => { ha with }
    have host := hd.keepsHost.trans hw.keepsHost
    obtain rfl | ⟨pending, -, u, landed, rfl⟩ := resetEdge_next hr
    · exact ⟨accepted host.abandoned, d, hd, hw.mem⟩
    · obtain ⟨d', hd', mem⟩ := hw.land deciding hd pending landed
      exact ⟨accepted (host.trans (completeRequest_keepsHost landed)).abandoned, d', hd', mem⟩

/-- A command cut off by a reset: whatever it has done to memory it had done at one of its decisions (R232). -/
theorem reset_cutsOff (hs : s.idle = true) (hc : s.presented = some c) (he : ∀ e ∈ es, e.quiet = true)
    (hrst : r.rst = true) (hagents : r.agents = []) (h : runEdges (es ++ [r]) s = .next t) :
    Abandoned s t ∧ ∃ d, Decides (s.accept (sample s.params c)) d ∧ t.mem = d.mem := by
  obtain ⟨w, hw, hr⟩ := runEdges_concat_next h
  have underway : Underway s c w :=
    runEdges_invariant (fun e hmem _ _ hu => hu.clockEdge hs hc (he e hmem)) (.inl rfl) hw
  rw [clockEdge_of_no_agents hagents, hrst] at hr
  exact underway.resetEdge hs hr

end

section
variable {s d : State} {i : Instr} {w : Width} {o : DataOrder} {index base len : Nat} {v : BitVec 32}

/-- At each decision the command calls for the next access of its plan. -/
theorem Decides.plan (h : Decides s d) (hdec : decode s.op = .ok i) :
    d.nextAction = plan s.params d.k.toNat d.rd i.shape := by
  have host := h.keepsHost
  rw [State.nextAction_of_decode (host.op ▸ hdec), host.params]

/-- A command that calls for no write leaves memory as it was. -/
theorem Decides.mem_of_no_write (h : Decides s d) (hn : ∀ u, Decides s u → ∀ a b, u.nextAction ≠ .write a b) :
    d.mem = s.mem := by
  induction h with
  | first => rfl
  | read _ _ ih => exact ih
  | write before called _ => exact absurd called (hn _ before _ _)

/-- An instruction whose plan never asks for a write leaves memory as it was. -/
theorem Decides.mem_of_plan (h : Decides s d) (hdec : decode s.op = .ok i)
    (hn : ∀ k rd a b, Machine.plan s.params k rd i.shape ≠ .write a b) : d.mem = s.mem :=
  h.mem_of_no_write fun u hu a b => by rw [hu.plan hdec]; exact hn _ _ a b

/-- A word that names no operation is answered without an access (R68). -/
theorem Decides.mem_of_illegal {e : IllegalWord} (h : Decides s d) (hdec : decode s.op = .error e) :
    d.mem = s.mem := by
  refine h.mem_of_no_write fun u hu a b => ?_
  have illegal : u.nextAction = .respond (failResponse .illegal) := by simp [State.nextAction, hu.keepsHost.op, hdec]
  simp [illegal]

/-- A STORE that fails its checks asks for no write (R206). -/
theorem plan_store_failed {p : Params} {k : Nat} {rd : BitVec 32} {a : Nat} {b : Byte}
    (failed : 2 ^ p.addrw < base + len ∨ len * 8 < (index + 1) * bits w) :
    Machine.plan p k rd (.store w o index v base len) ≠ .write a b := by
  intro h
  obtain ⟨hd, hb, -⟩ := plan_store_write h
  have := descOk_iff.mp hd
  have := inb_iff.mp hb
  omega

theorem afterWrites_concat (vs : List Byte) (b : Byte) (a : Nat) (s : State) :
    s.afterWrites (vs ++ [b]) a = (s.afterWrites vs a).afterWrite (a + vs.length) b := by
  induction vs generalizing a s with
  | nil => rfl
  | cons u us ih =>
    rw [List.length_cons, Nat.add_comm us.length 1, ← Nat.add_assoc]
    exact ih (a + 1) (s.afterWrite a u)

/-- A byte-aligned STORE decides after each of its writes, which ascend (R44, R150). -/
theorem Decides.store_aligned (h : Decides s d) (hk : s.k = 0)
    (hdec : decode s.op = .ok (storeInstr w o index v base len)) (hw : w.isSubByte = false) :
    ∃ j ≤ pixelBytes w,
      d = s.afterWrites ((split (pixelBytes w) o (maskw w v)).take j) (base + byteOffset w index) := by
  have bytes := pixelBytes_le w
  have length := split_length (pixelBytes w) o (maskw w v)
  induction h with
  | first => exact ⟨0, Nat.zero_le _, rfl⟩
  | read before called _ =>
    rw [before.plan hdec, storeInstr, shape_ofShape] at called
    obtain ⟨-, -, subByte, -⟩ := plan_store_read called
    exact nomatch hw.symm.trans subByte
  | write before called ih =>
    obtain ⟨j, hj, rfl⟩ := ih
    rw [before.plan hdec, storeInstr, shape_ofShape] at called
    have counter : (s.afterWrites ((split (pixelBytes w) o (maskw w v)).take j)
        (base + byteOffset w index)).k.toNat = j := by
      simp [State.afterWrites_k, hk, length]
      omega
    obtain ⟨-, -, -, next⟩ := plan_store_write called
    simp only [hw, Bool.false_eq_true, if_false, counter] at next
    obtain ⟨more, rfl, byte⟩ := next
    refine ⟨j + 1, more, ?_⟩
    rw [List.take_add_one, byte, Option.toList_some, afterWrites_concat, List.length_take_of_le (by omega)]

/-- A sub-byte STORE decides before its read, before its write, and after it (R150, R152). -/
theorem Decides.store_subByte (h : Decides s d) (hk : s.k = 0)
    (hdec : decode s.op = .ok (storeInstr w o index v base len)) (hw : w.isSubByte = true) :
    d = s ∨ d = s.afterRead (base + byteIndex w index) ∨
      d = (s.afterRead (base + byteIndex w index)).afterWrite (base + byteIndex w index)
        (insertField w (shift w o index) (s.mem.read (base + byteIndex w index)) (maskw w v)) := by
  induction h with
  | first => exact .inl rfl
  | read before called ih =>
    rw [before.plan hdec, storeInstr, shape_ofShape] at called
    obtain ⟨-, -, -, counter, rfl⟩ := plan_store_read called
    obtain rfl | rfl | rfl := ih
    · exact .inr (.inl rfl)
    · simp [hk] at counter
    · simp [hk] at counter
  | write before called ih =>
    rw [before.plan hdec, storeInstr, shape_ofShape] at called
    obtain ⟨-, -, -, next⟩ := plan_store_write called
    rw [if_pos hw] at next
    obtain ⟨counter, rfl, rfl⟩ := next
    obtain rfl | rfl | rfl := ih
    · simp [hk] at counter
    · exact .inr (.inr (by simp [hk, byteAt_setByte]))
    · simp [hk] at counter

/-- What a sub-byte STORE has done to memory at a decision: nothing, or its merged byte is written. -/
theorem Decides.store_subByte_mem (h : Decides s d) (hk : s.k = 0)
    (hdec : decode s.op = .ok (storeInstr w o index v base len)) (hw : w.isSubByte = true) :
    d.mem = s.mem ∨ d.mem = s.mem.write (base + byteIndex w index)
      (insertField w (shift w o index) (s.mem.read (base + byteIndex w index)) (maskw w v)) := by
  obtain rfl | rfl | rfl := h.store_subByte hk hdec hw
  · exact .inl rfl
  · exact .inl rfl
  · exact .inr rfl

end

/-- Settles O37: the writes of a STORE cut off at one of its decisions are its first ones (`Decides.store_aligned`). -/
theorem resetDuringByteAlignedCommand : Obligations.ResetDuringByteAlignedCommand := by
  intro s t c w o index base len v es r hs hc hdec hw _ _ he hrst hagents h
  obtain ⟨abandoned, d, hd, mem⟩ := reset_cutsOff hs hc he hrst hagents h
  obtain ⟨j, hj, rfl⟩ := hd.store_aligned rfl hdec hw
  refine ⟨⟨j, hj, fun a => ?_⟩, abandoned.busy, abandoned.rspValid, abandoned.memReqValid, abandoned.cmdReady,
    abandoned.taken, abandoned.pos⟩
  rw [mem, State.afterWrites_read, List.length_take_of_le (by rwa [split_length])]
  split
  · rw [List.getElem?_take_of_lt (by omega)]
  · rfl

/-- Settles O38: a sub-byte STORE cut off at one of its decisions has written its byte or not; the other commands ask for
no write. -/
theorem resetDuringSubByteCommand : Obligations.ResetDuringSubByteCommand := by
  intro s t c es r hs hc he hrst hagents h
  obtain ⟨abandoned, d, hd, mem⟩ := reset_cutsOff hs hc he hrst hagents h
  refine ⟨fun i hdec => ?_, fun e hdec => mem.trans (hd.mem_of_illegal hdec), abandoned.busy, abandoned.rspValid,
    abandoned.memReqValid, abandoned.taken⟩
  cases hi : i.shape with
  | value op w v => exact mem.trans (hd.mem_of_plan hdec (by simp [hi, plan]))
  | load w o index base len =>
    exact mem.trans (hd.mem_of_plan hdec fun k rd a b => hi ▸ plan_load_write)
  | store w o index v base len =>
    refine ⟨fun hw _ _ => ?_, fun failed => mem.trans (hd.mem_of_plan hdec fun k rd a b => hi ▸ plan_store_failed failed)⟩
    obtain rfl : i = storeInstr w o index v base len := by rw [storeInstr, ← hi, ofShape_shape]
    obtain unchanged | written := hd.store_subByte_mem rfl hdec hw
    · exact ⟨fun a _ => by rw [mem, unchanged]; rfl, .inl (by rw [mem, unchanged]; rfl)⟩
    · exact ⟨fun a ha => by rw [mem, written]; exact Memory.read_write_other _ _ ha.symm,
        .inr (by rw [mem, written]; exact Memory.read_write_same _ _ _)⟩

end Sys2Proof.Machine
end
